-- ==== Sys2Proof/Word.lean ====
section
/-! DEFINITION. The bit vectors of the Nofbrel 448: the byte of the service port (R177), the slot of the console
and chamber links (R174, R175), a stop set (R178) and the outlets of one chamber
link (R3); the names of a console port and of the levels of the RESET line; and a mark of the framing line. -/

namespace Sys2Proof

/-- One byte of the service port (R177). -/
abbrev Byte := BitVec 8

/-- One 16-bit slot of a console or chamber link, and one counter (R173, R174, R175). -/
abbrev Word := BitVec 16

/-- A set of stops 0 to 255, bit s standing for stop s (R178). -/
abbrev StopSet := BitVec 256

/-- A set of the 768 outlet positions of one chamber link, bit p standing for position p (R3). -/
abbrev LinkImage := BitVec 768

/-- A set of the twelve attention causes, bit p - 1 standing for the cause of priority p (R177). -/
abbrev CauseSet := BitVec 12

/-- A console port (R178 codes A 1, B 2). -/
inductive PortId where
  | A
  | B
  deriving DecidableEq, Repr

/-- A start mark on a port's framing line, so many bits after the port's last slot boundary (R132, R176). -/
structure FramingMark where
  port : PortId
  bit : Fin 16
  deriving DecidableEq, Repr

/-- The RESET line (R168). -/
inductive ResetLine where
  | asserted
  | released
  deriving DecidableEq, Repr

end Sys2Proof
end

