-- ==== Sys2Proof/Config.lean ====
section
/-! DEFINITION. What is fixed for the part: the numbers of 0.10, the divisions of R12, and the one free value of
the model, the choice among timers that run out together. -/

namespace Sys2Proof.Config

/-- The keys of a division: 32 for the Pedal (0) and the Effects (5), 61 for the manuals (R12). -/
def compass (division : Nat) : Nat :=
  if division = 0 ∨ division = 5 then 32 else 61

/-- The base note of a division: 24 for the Pedal, 36 for the manuals (R12). -/
def baseNote (division : Nat) : Nat :=
  if division = 0 then 24 else 36

/-- The positions a chamber link can carry (R3). -/
def positions : Nat := 768

/-- The claims a record can hold (R22). -/
def maxClaims : Nat := 12

/-- The names the dirty list can hold (R113). -/
def maxDirty : Nat := 32

/-- The idle fill of data-out: the byte FF (R177). -/
def idleByte : Byte := 0xFF#8

/-- FREE VALUE (log 3). Which of several events that are due together is taken first: the spec says they 'may be
taken in any order among themselves' (4.10.3, R77). It has no body, so no proof can rest on an order. The step
applies it to the count of choices it has made. -/
opaque freeChoice : Nat → Nat

end Sys2Proof.Config
end

