-- ==== Sys2Proof/Syntax.lean ====
section
/-! DEFINITION. The commands of the 448: one constructor for each row of spec/opcode_table.json. A request carries
its parameter bytes, so that every check of R162 is made inside the command; an event names the unit it happens at. -/

namespace Sys2Proof

/-- One command: a service-port transaction, an event of a console or chamber link, the RESET line, or a timer
running out. -/
inductive Instr where
  /-- POWER_ON_RESET: the RESET line goes to a level, the release when none is named. A release gives the power-on
  reset, whether or not an assertion came before it as a command of its own (R168; log 16). -/
  | powerOnReset (line : ResetLine := .released)
  /-- VOID_TRANSACTION: the bytes clocked in, the first of them neither 01 nor 02 (R177), or none at all (log 21). -/
  | voidTransaction (bytes : List Byte)
  /-- REQUEST_CHECK_FAILED: the bytes clocked in after 01, incomplete or with a differing check (R159). -/
  | requestCheckFailed (bytes : List Byte)
  /-- UNKNOWN_REQUEST: a good request that no other row takes, by its code and parameters (R162). -/
  | unknownRequest (code : Byte) (params : List Byte)
  /-- REQUEST_DISCARDED: a request transaction arrives while a response is outstanding (R161). -/
  | requestDiscarded
  /-- FETCH: a fetch transaction in which the host clocks this many bytes after 02 (R160). -/
  | fetch (clocked : Nat)
  /-- TABLE_READ with its parameters: table, index bytes (R177, R178). -/
  | tableRead (params : List Byte)
  /-- TABLE_WRITE of RANK: the bytes after the table code, as for every table below (R4, R178). -/
  | tableWriteRank (params : List Byte)
  /-- TABLE_WRITE of STOP (R8, R10). -/
  | tableWriteStop (params : List Byte)
  /-- TABLE_WRITE of SLOT_MAP (R130). -/
  | tableWriteSlotMap (params : List Byte)
  /-- TABLE_WRITE of RETURN_MAP (R131). -/
  | tableWriteReturnMap (params : List Byte)
  /-- TABLE_WRITE of PORT (R128). -/
  | tableWritePort (params : List Byte)
  /-- TABLE_WRITE of LINK (R147). -/
  | tableWriteLink (params : List Byte)
  /-- TABLE_WRITE of RAIL (R67). -/
  | tableWriteRail (params : List Byte)
  /-- TABLE_WRITE of GRANT (R82). -/
  | tableWriteGrant (params : List Byte)
  /-- TABLE_WRITE of COMBINATION (R112). -/
  | tableWriteCombination (params : List Byte)
  /-- TABLE_WRITE of CRESCENDO (R125). -/
  | tableWriteCrescendo (params : List Byte)
  /-- TABLE_WRITE of EXPRESSION (R116, R117). -/
  | tableWriteExpression (params : List Byte)
  /-- TABLE_WRITE of MUTE (R150). -/
  | tableWriteMute (params : List Byte)
  /-- START (R164). -/
  | start (params : List Byte)
  /-- STOP (R165). -/
  | stop (params : List Byte)
  /-- RESTART (R167). -/
  | restart (params : List Byte)
  /-- ALL_CLEAR (R44). -/
  | allClear (params : List Byte)
  /-- RECALL: port, code (R110). -/
  | recallPiston (params : List Byte)
  /-- SET_LEVEL: port, level (R111). -/
  | setLevel (params : List Byte)
  /-- LOOKUP: rank, pipe (R41). -/
  | lookup (params : List Byte)
  /-- NEXT_RECORD: index in two bytes (R42). -/
  | nextRecord (params : List Byte)
  /-- SILENCE: rank, pipe (R43). -/
  | silence (params : List Byte)
  /-- READ_STATUS of item 0: the bytes after the item, as for every item below (R145). -/
  | readStatusPort (params : List Byte)
  /-- READ_STATUS of item 1 (R78). -/
  | readStatusRail (params : List Byte)
  /-- READ_STATUS of item 2 (R158). -/
  | readStatusLink (params : List Byte)
  /-- READ_STATUS of item 3 (R126). -/
  | readStatusExpression (params : List Byte)
  /-- READ_STATUS of item 4 (R98). -/
  | readStatusStopSets (params : List Byte)
  /-- READ_STATUS of item 5 (R166). -/
  | readStatusMode (params : List Byte)
  /-- READ_ATTENTION (R171). -/
  | readAttention (params : List Byte)
  /-- CLEAR_ATTENTION: cause set in two bytes (R172). -/
  | clearAttention (params : List Byte)
  /-- WRITE_ATTENTION_ENABLE: cause set in two bytes (R170). -/
  | writeAttentionEnable (params : List Byte)
  /-- READ_COUNTERS (R173). -/
  | readCounters (params : List Byte)
  /-- CLEAR_COUNTERS (R173). -/
  | clearCounters (params : List Byte)
  /-- READ_DIRTY (R114). -/
  | readDirty (params : List Byte)
  /-- CLEAR_FAULT with selector 0: the bytes after the selector (R156, R179). -/
  | clearFaultOne (params : List Byte)
  /-- CLEAR_FAULT with selector 1: the bytes after the selector (R156, R179). -/
  | clearFaultAll (params : List Byte)
  /-- NEXT_FAULT: outlet in two bytes (R157). -/
  | nextFault (params : List Byte)
  /-- START_MARK: a start mark on a port's framing line (R132, R176). -/
  | startMark (mark : FramingMark)
  /-- EARLY_START_MARK: a start mark that finds the receiver receiving (R133, R176). -/
  | earlyStartMark (mark : FramingMark)
  /-- SCAN_FRAME: these slots arrive on the port's scan line, data slots and check slot (R132, R134). -/
  | scanFrame (port : PortId) (slots : List Word)
  /-- WATCHDOG_EXPIRY (R139). -/
  | watchdogExpiry (port : PortId)
  /-- DRIVE_TIMER_EXPIRY (R107). -/
  | driveTimerExpiry (port : PortId)
  /-- WAIT_TIMER_EXPIRY of the record at the index (R77). -/
  | waitTimerExpiry (index : Fin 448)
  /-- PULL_TIMER_EXPIRY (R34). -/
  | pullTimerExpiry (index : Fin 448)
  /-- SETTLE_TIMER_EXPIRY (R38, R52, R58). -/
  | settleTimerExpiry (index : Fin 448)
  /-- STRIKE_TIMER_EXPIRY (R50, R54). -/
  | strikeTimerExpiry (index : Fin 448)
  /-- CYCLE_TIMER_EXPIRY (R55). -/
  | cycleTimerExpiry (index : Fin 448)
  /-- PROTECTION_TIMER_EXPIRY (R60). -/
  | protectionTimerExpiry (index : Fin 448)
  /-- PERIOD_TIMER_EXPIRY (R152). -/
  | periodTimerExpiry (link : Fin 4)
  /-- KEEP_ALIVE_EXPIRY (R153). -/
  | keepAliveExpiry (link : Fin 4)
  /-- ON_DEMAND_FRAME_START (R153). -/
  | onDemandFrameStart (link : Fin 4)
  /-- FRAME_SENT: the check slot of the frame in flight has gone (R151). -/
  | frameSent (link : Fin 4)
  /-- REPLY_PERIOD_CLOSE: the reply period closes, these words having arrived in it (R154). -/
  | replyPeriodClose (link : Fin 4) (words : List Word)
  deriving DecidableEq, Repr

end Sys2Proof
end

