-- ==== Sys2Proof/Machine/State.lean ====
section
/-! DEFINITION. The state of the 448 as plain data: every table, record, list, timer, counter, mode and line that the
spec gives it (INVENTORY.md '## State' lists each with its rule), the queue of waiting commands, and the reset state. -/

namespace Sys2Proof.Machine

/-! ### Resolver (R1, R7) -/

/-- The kinds of a Rank Table entry (R1). -/
inductive RankKind where
  | unused
  | pipe
  | strike
  | reiterate
  | held
  | tremulant
  deriving DecidableEq, Repr

/-- One entry of the Rank Table (R1, R2). A field the kind does not use stands at 0. -/
structure RankEntry where
  kind : RankKind
  low : Nat
  count : Nat
  link : Nat
  slot : Nat
  bit : Nat
  rail : Nat
  pull : Nat
  hold : Nat
  pullTime : Nat
  minOff : Nat
  strikeTime : Nat
  period : Nat
  maxHold : Nat
  /-- The damper outlet's slot and bit, or absent (R1); an absent one has neither (log 23). -/
  damper : Option (Nat × Nat)
  deriving DecidableEq, Repr

/-- An UNUSED rank entry (R2, R6). -/
def RankEntry.unset : RankEntry :=
  { kind := .unused, low := 0, count := 0, link := 0, slot := 0, bit := 0, rail := 0, pull := 0, hold := 0,
    pullTime := 0, minOff := 0, strikeTime := 0, period := 0, maxHold := 0, damper := none }

/-- The kinds of a Stop Map entry (R7). -/
inductive StopKind where
  | unused
  | voice
  | fixed
  | tremulant
  deriving DecidableEq, Repr

/-- The two contact depths of a key (R12). -/
inductive Touch where
  | first
  | second
  deriving DecidableEq, Repr

/-- How a VOICE stop treats notes beyond its rank's compass (R15, R16). -/
inductive BreakMode where
  | silent
  | fold
  deriving DecidableEq, Repr

/-- One entry of the Stop Map (R7). A field the kind does not use stands at 0, FIRST or SILENT. -/
structure StopEntry where
  division : Nat
  kind : StopKind
  touch : Touch
  rank : Nat
  offset : Int
  pipe : Nat
  windowLow : Nat
  windowHigh : Nat
  breakMode : BreakMode
  deriving DecidableEq, Repr

/-- An UNUSED stop entry (R7, R9). -/
def StopEntry.unset : StopEntry :=
  { division := 0, kind := .unused, touch := .first, rank := 0, offset := 0, pipe := 0, windowLow := 0,
    windowHigh := 0, breakMode := .silent }

/-! ### Sounding table (R19, R22, R47) -/

/-- The kinds of a sounding record (R19). -/
inductive RecordKind where
  | pipe
  | strike
  | reiterate
  | held
  deriving DecidableEq, Repr

/-- The states of a sounding record (R19, R47). -/
inductive RecordState where
  | waiting
  | pulling
  | speaking
  | striking
  | resting
  | struck
  | locked
  | settling
  deriving DecidableEq, Repr

/-- A claim identity (R22). -/
structure Claim where
  port : PortId
  division : Nat
  touch : Touch
  key : Nat
  stop : Nat
  deriving DecidableEq, Repr

/-- One sounding record (R19). Its index is its place in the table. Timers hold whole milliseconds remaining. -/
structure Record where
  rank : Nat
  pipe : Nat
  kind : RecordKind
  state : RecordState
  /-- Head first, the oldest claim at the head (R22). -/
  claims : List Claim
  charge : Nat
  phase : Option Nat
  cycle : Option Nat
  protection : Option Nat
  restrike : Bool
  overdue : Bool
  paused : Bool
  strikeCount : Nat
  /-- A cycle expiry taken in STRIKING and held for the strike expiry (R55). -/
  cycleHeld : Bool
  deriving DecidableEq, Repr

/-! ### Supply allocator (R66, R68) -/

/-- A rail's configuration entry; four zeros when unset (R66). -/
structure RailEntry where
  capacity : Nat
  high : Nat
  low : Nat
  deferLimit : Nat
  deriving DecidableEq, Repr

/-- A rail: its entry and its running state (R66, R68). -/
structure Rail where
  entry : RailEntry
  draw : Nat
  strained : Bool
  /-- Indexes of the WAITING records of this rail, oldest first (R71). -/
  deferred : List Nat
  deriving DecidableEq, Repr

/-- An unset rail at draw 0, NORMAL, with an empty list (R66, R79). -/
def Rail.unset : Rail :=
  { entry := { capacity := 0, high := 0, low := 0, deferLimit := 0 }, draw := 0, strained := false, deferred := [] }

/-! ### Console ports (R127, R129, R131, R135, R103) -/

/-- A console port's configuration entry (R127). -/
structure PortEntry where
  enabled : Bool
  /-- Data slot count N. -/
  dataSlots : Nat
  /-- Return slot count M. -/
  returnSlots : Nat
  watchdog : Nat
  recovery : Nat
  drivePeriod : Nat
  deriving DecidableEq, Repr

/-- The kinds of a slot map entry (R129). -/
inductive SlotKind where
  | unused
  | keys
  | tabs
  | pistons
  | expression
  deriving DecidableEq, Repr

/-- One slot map entry (R129). -/
structure SlotEntry where
  kind : SlotKind
  division : Nat
  touch : Touch
  /-- First key, first stop or first piston code. -/
  first : Nat
  debounce : Nat
  deriving DecidableEq, Repr

/-- The kinds of a return slot map entry (R131). -/
inductive ReturnKind where
  | unused
  | tabDriveOn
  | tabDriveOff
  | indicator
  deriving DecidableEq, Repr

/-- One return slot map entry (R131). -/
structure ReturnEntry where
  kind : ReturnKind
  firstStop : Nat
  deriving DecidableEq, Repr

/-- The four states of a console port (R135). -/
inductive PortState where
  | off
  | seeking
  | online
  | lost
  deriving DecidableEq, Repr

/-- A port's receiver: idle while OFF, waiting for a start mark, or receiving with the slots taken so far (R132). -/
inductive Receiver where
  | idle
  | waiting
  | receiving (taken : List Word)
  deriving DecidableEq, Repr

/-- How a port reckons slot boundaries on its line (R176): it has taken no start mark since it left OFF; every 16 bits
from the last start mark it took; or so, with a start mark that fell inside a slot held until the next boundary. -/
inductive Framing where
  | unset
  | reckoned
  | held
  deriving DecidableEq, Repr

/-- A console port's recall slot (R103). The drive set is held as the stops driven ON and the stops driven OFF. -/
structure RecallSlot where
  inProgress : Bool
  driveOn : StopSet
  driveOff : StopSet
  timer : Option Nat
  pendingPiston : Option Nat
  deriving DecidableEq, Repr

/-- The idle recall slot (R103). -/
def RecallSlot.idle : RecallSlot :=
  { inProgress := false, driveOn := 0, driveOff := 0, timer := none, pendingPiston := none }

/-- A console port (R127 to R145), with the level and the recall slot the piston unit keeps for it (R102, R103). -/
structure ConsolePort where
  entry : PortEntry
  slotMap : Vector SlotEntry 64
  returnMap : Vector ReturnEntry 32
  state : PortState
  receiver : Receiver
  framing : Framing
  /-- The accepted image, one word for each slot position, 1 for made (R145). -/
  image : Vector Word 64
  /-- The debounce count of contact b of slot i at place 16 i + b (R141). -/
  debounce : Vector Nat 1024
  good : Nat
  watchdog : Option Nat
  /-- A frame reloaded the watchdog while an expiry of it waited in the queue: that expiry does not take place (R140;
  log 22). -/
  overtaken : Bool
  /-- The return frame in progress: its latched return slots and then its check slot (R143). -/
  returnFrame : Option (List Word)
  level : Nat
  recallSlot : RecallSlot
  deriving DecidableEq, Repr

/-- A console port after power-on reset (R127, R130, R131, R135, R102, R103). -/
def ConsolePort.reset : ConsolePort :=
  { entry := { enabled := false, dataSlots := 0, returnSlots := 0, watchdog := 0, recovery := 0, drivePeriod := 0 }
    slotMap := Vector.replicate 64 { kind := .unused, division := 0, touch := .first, first := 0, debounce := 0 }
    returnMap := Vector.replicate 32 { kind := .unused, firstStop := 0 }
    state := .off
    receiver := .idle
    framing := .unset
    image := Vector.replicate 64 0
    debounce := Vector.replicate 1024 0
    good := 0
    watchdog := none
    overtaken := false
    returnFrame := none
    level := 0
    recallSlot := RecallSlot.idle }

/-! ### Expression unit (R115, R118) -/

/-- What an expression entry drives; none while the entry is unset (R115). -/
inductive ExprTarget where
  | none
  | shade
  | crescendo
  deriving DecidableEq, Repr

/-- One entry of the expression list (R115). -/
structure ExprEntry where
  enabled : Bool
  /-- Absent only while the entry is unset (R115, R178). -/
  port : Option PortId
  slot : Nat
  offset : Nat
  low : Nat
  high : Nat
  hysteresis : Nat
  faultDetect : Bool
  faultCount : Nat
  target : ExprTarget
  link : Nat
  outSlot : Nat
  outBit : Nat
  stages : Nat
  deriving DecidableEq, Repr

/-- An unset expression entry (R115). -/
def ExprEntry.unset : ExprEntry :=
  { enabled := false, port := .none, slot := 0, offset := 0, low := 0, high := 0, hysteresis := 0,
    faultDetect := false, faultCount := 0, target := .none, link := 0, outSlot := 0, outBit := 0, stages := 0 }

/-- The run state of an expression entry (R118). -/
structure ExprRun where
  stage : Nat
  faulted : Bool
  runCount : Nat
  lastValue : Nat
  deriving DecidableEq, Repr

/-- The cleared run state (R118). -/
def ExprRun.clear : ExprRun :=
  { stage := 0, faulted := false, runCount := 0, lastValue := 0 }

/-! ### Chamber links (R146, R148, R150, R151) -/

/-- How a link's frames are started (R152, R153). -/
inductive LinkMode where
  | periodic
  | onDemand
  deriving DecidableEq, Repr

/-- A chamber link's configuration entry (R146). The rate is its code: 0, 1, 2 for 250, 500, 1000 kbit/s (R178). -/
structure LinkEntry where
  enabled : Bool
  slots : Nat
  rate : Nat
  mode : LinkMode
  period : Nat
  keepAlive : Nat
  downThreshold : Nat
  deriving DecidableEq, Repr

/-- The three states of a chamber link (R148). -/
inductive LinkState where
  | idle
  | up
  | down
  deriving DecidableEq, Repr

/-- The operation in flight on a link (R151). -/
inductive Flight where
  | free
  | sending
  | reply
  deriving DecidableEq, Repr

/-- A chamber link: its entry and its running state (R146, R148, R151 to R153). -/
structure Link where
  entry : LinkEntry
  state : LinkState
  miss : Nat
  flight : Flight
  /-- The contents latched by the frame last begun (R151). -/
  latch : LinkImage
  /-- The last image sent (R151). -/
  lastSent : LinkImage
  period : Option Nat
  keepAlive : Option Nat
  /-- A period expiry taken in flight, whose frame start waits for the close of the reply (R152). -/
  startWaits : Bool
  /-- The frame in flight was begun in QUIESCING after the table became empty (R148). -/
  serving : Bool
  /-- The link has served the quiesce (R148). -/
  served : Bool
  deriving DecidableEq, Repr

/-- A link in IDLE with the given entry: miss count 0 and nothing in flight (R148, R158). The latch, the last image
sent and the quiesce marks are cleared: DESIGN CHOICE (log 15). -/
def Link.idle (e : LinkEntry) : Link :=
  { entry := e, state := .idle, miss := 0, flight := .free, latch := 0, lastSent := 0, period := none,
    keepAlive := none, startWaits := false, serving := false, served := false }

/-- A link's entry after power-on reset: disabled with every field 0 (R146). -/
def LinkEntry.unset : LinkEntry :=
  { enabled := false, slots := 0, rate := 0, mode := .periodic, period := 0, keepAlive := 0, downThreshold := 0 }

/-- A mute window (R150). -/
structure MuteWindow where
  base : BitVec 12
  mask : BitVec 12
  enabled : Bool
  deriving DecidableEq, Repr

/-! ### Service port, modes, attention and counters (R159 to R173) -/

/-- The three modes of the relay (R163). -/
inductive Mode where
  | config
  | run
  | quiescing
  deriving DecidableEq, Repr

/-- The status values (R162). -/
inductive Status where
  | ok
  | check
  | unknown
  | mode
  | range
  | inUse
  | overlap
  | notFound
  | configError
  deriving DecidableEq, Repr

/-- The response waiting to be fetched (R159, R160). -/
structure Response where
  status : Status
  payload : List Byte
  deriving DecidableEq, Repr

/-- The twelve attention causes, in order of priority (R169). -/
inductive Cause where
  | linkDown
  | outletFault
  | portLost
  | magnetProtect
  | tableFull
  | supplyOverdue
  | claimOverflow
  | expressionFault
  | tabMismatch
  | portOnline
  | combinationChanged
  | quiesced
  deriving DecidableEq, Repr

/-- An attention detail (R169, R180). -/
inductive Detail where
  | none
  /-- A link, entry, stop, record index or outlet, as its number. -/
  | number (n : Nat)
  | port (p : PortId)
  | rankPipe (rank pipe : Nat)
  deriving DecidableEq, Repr

/-- The twenty-four counters, by scope (R173). -/
inductive Counter where
  | validFrames (p : PortId)
  | earlyStarts (p : PortId)
  | checkFailures (p : PortId)
  | ungranted (p : PortId)
  | duplicateClaims
  | tableFullClaims
  | claimOverflows
  | deferredAdmissions
  | overdueWaits
  | lockouts
  | tabMismatches
  | discardedRequests
  | framesSent (link : Nat)
  | repliesMissed (link : Nat)
  deriving DecidableEq, Repr

/-! ### The whole -/

/-- Why the relay would stop with a fault. It has no constructor: the spec names no event that stops the relay
(INVENTORY.md '## Faults'), and no command faults. -/
inductive Fault where
  deriving DecidableEq, Repr

/-- Why a command has no meaning. -/
inductive Refusal where
  /-- Raised by a refused arm of `exec` for a command not modelled yet; safe, since nothing follows from it. No arm
  raises it now. -/
  | notModelled (mnemonic : String)
  deriving DecidableEq, Repr

/-- The state of the relay. -/
structure State where
  /-- Rank Table (R1). -/
  ranks : Vector RankEntry 64
  /-- Stop Map (R7). -/
  stops : Vector StopEntry 256
  /-- Grant table, one holder for each division (R81). -/
  grants : Vector (Option PortId) 6
  /-- Drawn set (R84). -/
  drawn : StopSet
  /-- Tremulant standing outputs, bit r for rank r (R97). -/
  tremulants : BitVec 64
  /-- Combination memory, code c of level v at place 40 v + c (R100). -/
  combination : Vector StopSet 640
  /-- Dirty list, head first, of (level, code) (R113). -/
  dirty : List (Nat × Nat)
  dirtyOverflow : Bool
  /-- Expression list (R115). -/
  expression : Vector ExprEntry 8
  /-- Run state of the expression entries (R118). -/
  runs : Vector ExprRun 8
  /-- Crescendo stage records, record n at place n - 1 (R125). -/
  crescendo : Vector StopSet 15
  /-- Sounding table, FREE or holding one record at each index (R21). -/
  table : Vector (Option Record) 448
  /-- Magnet rails (R66, R68). -/
  rails : Vector Rail 4
  portA : ConsolePort
  portB : ConsolePort
  /-- Chamber links (R146). -/
  links : Vector Link 4
  /-- Mute windows (R150). -/
  mutes : Vector MuteWindow 8
  /-- Fault set, ascending (R156). -/
  faults : List Nat
  /-- The RESET line (R168). -/
  resetLine : ResetLine
  /-- Mode (R163). -/
  mode : Mode
  /-- The response waiting, which is the outstanding request (R159, R160). -/
  response : Option Response
  /-- Discard tally (R161). -/
  discardTally : Nat
  /-- Response bytes carried by data-out in the last service-port transaction; every other byte of a transaction is
  the idle fill (`dataOutByte`; R160, R177; log 14). -/
  dataOut : List Byte
  /-- Pending flags of the causes (R169). -/
  pendingCauses : CauseSet
  /-- Enables of the causes (R170). -/
  enabledCauses : CauseSet
  /-- Latest details of the causes, in order of priority (R169). -/
  details : Vector Detail 12
  /-- First cause, absent for NONE (R171). -/
  firstCause : Option Cause
  /-- The counters in the order of READ_COUNTERS (R173, R180). -/
  counters : Vector Word 24
  /-- The commands that wait, first in, first out (log 1). -/
  pending : List Instr
  /-- The model's own count of free choices made (log 3). -/
  choices : Nat
  deriving DecidableEq, Repr

/-- The relay after power-on reset: CONFIG, with every table and state at its power-on value (R168 and the rule each
field names). -/
def State.reset : State :=
  { ranks := Vector.replicate 64 RankEntry.unset
    stops := Vector.replicate 256 StopEntry.unset
    grants := Vector.replicate 6 none
    drawn := 0
    tremulants := 0
    combination := Vector.replicate 640 0
    dirty := []
    dirtyOverflow := false
    expression := Vector.replicate 8 ExprEntry.unset
    runs := Vector.replicate 8 ExprRun.clear
    crescendo := Vector.replicate 15 0
    table := Vector.replicate 448 none
    rails := Vector.replicate 4 Rail.unset
    portA := ConsolePort.reset
    portB := ConsolePort.reset
    links := Vector.replicate 4 (Link.idle LinkEntry.unset)
    mutes := Vector.replicate 8 { base := 0, mask := 0, enabled := false }
    faults := []
    resetLine := .released
    mode := .config
    response := none
    discardTally := 0
    dataOut := []
    pendingCauses := 0
    enabledCauses := BitVec.allOnes 12
    details := Vector.replicate 12 Detail.none
    firstCause := none
    counters := Vector.replicate 24 0
    pending := []
    choices := 0 }

end Sys2Proof.Machine
end

