-- ==== Sys2Proof/Machine/Ops.lean ====
section
/-! DEFINITION. The named operations on the state that every family shares: reading and writing a table, bits of a
set, bytes of a value, the ports, ranks, stops and rails by number, the places of the sounding table, and a record's
charge with its rail's draw. -/

namespace Sys2Proof.Machine

/-! ### Tables, bits and bytes -/

/-- Entry `i` of a table, or `d` beyond its end. -/
def look {α : Type} {n : Nat} (v : Vector α n) (i : Nat) (d : α) : α :=
  (v[i]?).getD d

/-- The table with entry `i` replaced; beyond its end nothing changes. -/
def put {α : Type} {n : Nat} (v : Vector α n) (i : Nat) (x : α) : Vector α n :=
  v.setIfInBounds i x

/-- A table with every entry changed by `f`. -/
def mapTable {α : Type} {n : Nat} (f : α → α) (v : Vector α n) : Vector α n :=
  ⟨⟨v.toList.map f⟩, by simp⟩

/-- The bit vector whose bit i, for i below `k`, is `f i`. -/
def bitsOf (w : Nat) (f : Nat → Bool) : Nat → BitVec w
  | 0 => 0
  | k + 1 => bitsOf w f k ||| (if f k then BitVec.twoPow w k else 0)

/-- A bit vector with bit `i` set to `v`. -/
def withBit {w : Nat} (x : BitVec w) (i : Nat) (v : Bool) : BitVec w :=
  if v then x ||| BitVec.twoPow w i else x &&& ~~~ BitVec.twoPow w i

/-- The members of a set, ascending. -/
def members {w : Nat} (x : BitVec w) : List Nat :=
  (List.range w).filter fun i => x.getLsbD i

/-- Byte `i` of a list as a number; 0 beyond its end. -/
def byteAt (bs : List Byte) (i : Nat) : Nat :=
  (bs.getD i 0).toNat

/-- The two-byte field at place `i`, most significant byte first (R177). -/
def wordAt (bs : List Byte) (i : Nat) : Nat :=
  byteAt bs i * 256 + byteAt bs (i + 1)

/-- A number as one byte. -/
def byte (n : Nat) : Byte :=
  BitVec.ofNat 8 n

/-- A number as two bytes, most significant first (R177). -/
def bytes2 (n : Nat) : List Byte :=
  [byte (n / 256), byte n]

/-- A stop set as 32 bytes: bit s mod 8 of byte s / 8 is stop s (R178). -/
def stopSetBytes (x : StopSet) : List Byte :=
  (List.range 32).map fun i => x.extractLsb' (8 * i) 8

/-- The stop set that 32 bytes from place `i` on spell (R178). -/
def stopSetAt (bs : List Byte) (i : Nat) : StopSet :=
  bitsOf 256 (fun s => (bs.getD (i + s / 8) 0).getLsbD (s % 8)) 256

/-- The two ports, A first. -/
def allPorts : List PortId := [.A, .B]

/-- The four rails, and the four links, in ascending order. -/
def four : List Nat := [0, 1, 2, 3]

/-! ### Units by number -/

/-- The rank of a number; UNUSED beyond the table. -/
def rankAt (s : State) (r : Nat) : RankEntry :=
  look s.ranks r RankEntry.unset

/-- The stop of a number; UNUSED beyond the map. -/
def stopAt (s : State) (n : Nat) : StopEntry :=
  look s.stops n StopEntry.unset

/-- The granting port of a division, if it has one (R81). -/
def granting (s : State) (d : Nat) : Option PortId :=
  look s.grants d none

/-- Whether a port holds the grant of a division (R81, R83). -/
def holds (s : State) (p : PortId) (d : Nat) : Bool :=
  granting s d == some p

/-- The rail of a number. -/
def railAt (s : State) (k : Nat) : Rail :=
  look s.rails k Rail.unset

/-- The link of a number. -/
def linkAt (s : State) (l : Nat) : Link :=
  look s.links l (Link.idle LinkEntry.unset)

/-- The console port of a name. -/
def portAt (s : State) : PortId → ConsolePort
  | .A => s.portA
  | .B => s.portB

/-- The expression entry of a number. -/
def exprAt (s : State) (e : Nat) : ExprEntry :=
  look s.expression e ExprEntry.unset

/-- The run state of an expression entry. -/
def runAt (s : State) (e : Nat) : ExprRun :=
  look s.runs e ExprRun.clear

/-- The combination record of a level and a code (R100). -/
def combinationAt (s : State) (level code : Nat) : StopSet :=
  look s.combination (40 * level + code) 0

/-- The crescendo stage record of a stage; stage 0 has the empty set (R124, R125). -/
def crescendoAt (s : State) (stage : Nat) : StopSet :=
  if stage = 0 then 0 else look s.crescendo (stage - 1) 0

/-- The record in use at an index, or none while the index is FREE (R21). -/
def recordAt (s : State) (i : Nat) : Option Record :=
  look s.table i none

/-- The rail that feeds a record, read from the Rank Table (R19). -/
def railOf (s : State) (r : Record) : Nat :=
  (rankAt s r.rank).rail

/-! ### Writing one unit -/

/-- The state with a console port replaced. -/
def setPort (s : State) (p : PortId) (c : ConsolePort) : State :=
  match p with
  | .A => { s with portA := c }
  | .B => { s with portB := c }

/-- The state with a rail replaced. -/
def setRail (s : State) (k : Nat) (r : Rail) : State :=
  { s with rails := put s.rails k r }

/-- The state with a link replaced. -/
def setLink (s : State) (l : Nat) (x : Link) : State :=
  { s with links := put s.links l x }

/-- The state with one place of the sounding table replaced. -/
def setRecord (s : State) (i : Nat) (r : Option Record) : State :=
  { s with table := put s.table i r }

/-- The state with the run state of one expression entry replaced. -/
def setRun (s : State) (e : Nat) (r : ExprRun) : State :=
  { s with runs := put s.runs e r }

/-- The state with the drawn set replaced. -/
def setDrawn (s : State) (x : StopSet) : State :=
  { s with drawn := x }

/-- The state with one rank's tremulant standing output set (R97). -/
def setTremulant (s : State) (r : Nat) (on : Bool) : State :=
  { s with tremulants := withBit s.tremulants r on }

/-- The state with one stop entry replaced. -/
def setStop (s : State) (n : Nat) (e : StopEntry) : State :=
  { s with stops := put s.stops n e }

/-- The state with the mode replaced. -/
def setMode (s : State) (m : Mode) : State :=
  { s with mode := m }

/-! ### Places of the sounding table -/

/-- The indexes in use from place `i` of a list of places on, ascending. -/
def occupiedFrom : Nat → List (Option Record) → List Nat
  | _, [] => []
  | i, none :: t => occupiedFrom (i + 1) t
  | i, some _ :: t => i :: occupiedFrom (i + 1) t

/-- The indexes in use, ascending (R27). -/
def occupied (s : State) : List Nat :=
  occupiedFrom 0 s.table.toList

/-- The first place of a list, counted from `i`, whose content passes a test. -/
def firstPlace (f : Option Record → Bool) : Nat → List (Option Record) → Option Nat
  | _, [] => none
  | i, x :: t => if f x then some i else firstPlace f (i + 1) t

/-- Whether a place holds a record of a rank and pipe. -/
def holdsPipe (rank pipe : Nat) : Option Record → Bool
  | none => false
  | some r => r.rank == rank && r.pipe == pipe

/-- The index of the record in use for a rank and pipe; there is at most one (R21). -/
def findRecord (s : State) (rank pipe : Nat) : Option Nat :=
  firstPlace (holdsPipe rank pipe) 0 s.table.toList

/-- The lowest FREE index (R24). -/
def lowestFree (s : State) : Option Nat :=
  firstPlace Option.isNone 0 s.table.toList

/-- Whether the sounding table is empty (R46, R166). -/
def tableEmpty (s : State) : Bool :=
  s.table.toList.all Option.isNone

/-- The number of records in use (R166). -/
def recordsInUse (s : State) : Nat :=
  (occupied s).length

/-! ### A record's charge and its rail's draw -/

/-- The charge now held by the place `i` of the table. -/
def chargeAt (s : State) (i : Nat) : Nat :=
  match recordAt s i with
  | none => 0
  | some r => r.charge

/-- Store a record at its index. Its rail's draw changes by the change of its charge, at the same step (R20, R68). -/
def storeRecord (s : State) (i : Nat) (r : Record) : State :=
  let k := railOf s r
  let rail := railAt s k
  setRail (setRecord s i (some r)) k { rail with draw := rail.draw + r.charge - chargeAt s i }

/-- Free an index; a charge its record still holds leaves the rail with it (R21, R69). -/
def freeRecord (s : State) (i : Nat) : State :=
  match recordAt s i with
  | none => s
  | some r =>
    let k := railOf s r
    let rail := railAt s k
    setRail (setRecord s i none) k { rail with draw := rail.draw - r.charge }

/-- The hold charge of a rank: its hold units, or 1 when they are 0 (R20). -/
def holdCharge (e : RankEntry) : Nat :=
  if e.hold = 0 then 1 else e.hold

/-- Whether a record's outlet is energized in a state (R20, R47). -/
def energizedState : RecordState → Bool
  | .pulling => true
  | .speaking => true
  | .striking => true
  | _ => false

/-- The record kind a rank gives its records; a TREMULANT or UNUSED rank has none (R1, R24). -/
def recordKind? : RankKind → Option RecordKind
  | .pipe => some .pipe
  | .strike => some .strike
  | .reiterate => some .reiterate
  | .held => some .held
  | .tremulant => none
  | .unused => none

/-- The first position of a rank or shade range: slot × 16 + bit (R3). -/
def position (slot bit : Nat) : Nat :=
  slot * 16 + bit

/-- The outlet number of a position on a link (R3). -/
def outlet (link pos : Nat) : Nat :=
  link * 1024 + pos

end Sys2Proof.Machine
end

