-- ==== Sys2Proof/Machine/Flags.lean ====
section
/-! DEFINITION. The flags and counters through which the relay reports: the twenty-four counters (R173), the twelve
attention causes with the ATTENTION line (R169 to R172), the RESPONSE READY line (R160), the data-out line (R177), and
the check values of the
links and of the service port (R159, R176). -/

namespace Sys2Proof.Machine

/-! ### Counters -/

/-- The place of a port in the READ_COUNTERS answer (R180). -/
def portPlace : PortId → Nat
  | .A => 0
  | .B => 1

/-- The place of a counter in the READ_COUNTERS answer: port A's four, port B's four, the eight global ones, then two
for each link (R173, R180). -/
def Counter.place : Counter → Nat
  | .validFrames p => 4 * portPlace p
  | .earlyStarts p => 4 * portPlace p + 1
  | .checkFailures p => 4 * portPlace p + 2
  | .ungranted p => 4 * portPlace p + 3
  | .duplicateClaims => 8
  | .tableFullClaims => 9
  | .claimOverflows => 10
  | .deferredAdmissions => 11
  | .overdueWaits => 12
  | .lockouts => 13
  | .tabMismatches => 14
  | .discardedRequests => 15
  | .framesSent l => 16 + 2 * l
  | .repliesMissed l => 17 + 2 * l

/-- The value of a counter. -/
def counterAt (s : State) (c : Counter) : Word :=
  look s.counters (Counter.place c) 0

/-- One more, stopping at 65535 (R173). -/
def countUp (w : Word) : Word :=
  if w = 0xFFFF#16 then w else w + 1

/-- Raise a counter by 1 (R173). -/
def bump (s : State) (c : Counter) : State :=
  { s with counters := put s.counters (Counter.place c) (countUp (counterAt s c)) }

/-! ### Attention -/

/-- The bit of a cause in a cause set, one below its priority (R169, R177). -/
def Cause.bit : Cause → Nat
  | .linkDown => 0
  | .outletFault => 1
  | .portLost => 2
  | .magnetProtect => 3
  | .tableFull => 4
  | .supplyOverdue => 5
  | .claimOverflow => 6
  | .expressionFault => 7
  | .tabMismatch => 8
  | .portOnline => 9
  | .combinationChanged => 10
  | .quiesced => 11

/-- The causes in order of priority (R169). -/
def allCauses : List Cause :=
  [.linkDown, .outletFault, .portLost, .magnetProtect, .tableFull, .supplyOverdue, .claimOverflow, .expressionFault,
    .tabMismatch, .portOnline, .combinationChanged, .quiesced]

/-- The line ATTENTION: high while at least one cause is both pending and enabled (10.7, R170). -/
def attentionLine (s : State) : Bool :=
  s.pendingCauses &&& s.enabledCauses != 0

/-- The line RESPONSE READY: high while a response waits to be fetched (R159, R160). -/
def responseReady (s : State) : Bool :=
  s.response.isSome

/-- The byte that data-out carried at place `i` of the last service-port transaction, the opening byte being place 0: a
byte of a response, or else the idle fill (R160, R177; log 14). -/
def dataOutByte (s : State) (i : Nat) : Byte :=
  if i = 0 then Config.idleByte else s.dataOut.getD (i - 1) Config.idleByte

/-- Raise a cause with a detail: its pending flag is set and its latest detail overwritten, and if the line was low
and the cause is enabled it becomes the first cause (R169). -/
def raise (s : State) (c : Cause) (d : Detail) : State :=
  { s with
    pendingCauses := withBit s.pendingCauses (Cause.bit c) true
    details := put s.details (Cause.bit c) d
    firstCause := if !attentionLine s && s.enabledCauses.getLsbD (Cause.bit c) then some c else s.firstCause }

/-- The lead cause: the pending and enabled cause of highest priority (R171). -/
def leadCause (s : State) : Option Cause :=
  allCauses.find? fun c => (s.pendingCauses &&& s.enabledCauses).getLsbD (Cause.bit c)

/-- The code of a port: A 1, B 2 (R178). -/
def portCode : PortId → Nat
  | .A => 1
  | .B => 2

/-- An attention detail in two bytes; none is FFFF (R180). -/
def Detail.toBytes : Detail → List Byte
  | .none => [0xFF, 0xFF]
  | .number n => bytes2 n
  | .port p => bytes2 (portCode p)
  | .rankPipe r p => [byte r, byte p]

/-! ### Check values -/

/-- The check value of a list of slots: the ones' complement of their sum kept to its low 16 bits (R134, R176). -/
def checkWord (slots : List Word) : Word :=
  ~~~ slots.foldl (fun a b => a + b) 0

/-- The check value of a list of bytes: the ones' complement of their sum kept to its low eight bits (R159). -/
def checkByte (bs : List Byte) : Byte :=
  ~~~ bs.foldl (fun a b => a + b) 0

end Sys2Proof.Machine
end

