-- ==== Sys2Proof/WellFormed.lean ====
section
/-! DEFINITION. Which commands a line or a timer of the 448 can present: a request's parameters fit its length byte
(R177), and the four transactions that are no good request are the ones R159, R162 and R177 describe. A command that is
not well formed still has its meaning; it is one that nothing outside can send. -/

namespace Sys2Proof

/-- The bytes clocked in after 01 make a complete request whose check byte is right (R159, R177): the code, the length,
that many parameters, and their check value. -/
def goodRequest : List Byte → Bool
  | code :: length :: rest =>
    decide (length.toNat < rest.length)
      && rest.getD length.toNat 0 == Machine.checkByte (code :: length :: rest.take length.toNat)
  | _ => false

/-- The codes of the requests whose command is chosen by the code alone (R177). -/
def plainCodes : List Nat :=
  [0x10, 0x20, 0x21, 0x22, 0x30, 0x31, 0x32, 0x40, 0x41, 0x42, 0x60, 0x61, 0x62, 0x70, 0x71, 0x80, 0x82]

/-- The number of the first parameter byte; 256, which no byte is, when there is none. -/
def leading : List Byte → Nat
  | [] => 256
  | b :: _ => b.toNat

/-- A good request of this code and these parameters is taken by no other command: its code is not one of R177, or it
is a TABLE_WRITE of no table, a READ_STATUS of no item or a CLEAR_FAULT of no form (R162, R179). -/
def unclaimed (code : Byte) (params : List Byte) : Bool :=
  if code.toNat = 0x11 then decide (11 < leading params)
  else if code.toNat = 0x50 then decide (5 < leading params)
  else if code.toNat = 0x81 then decide (1 < leading params)
  else !plainCodes.contains code.toNat

/-- Parameters that fit the length byte after `before` discriminating bytes (R177). -/
def fits (before : Nat) (params : List Byte) : Bool :=
  decide (before + params.length ≤ 255)

/-- Whether the line or the timer a command names can present it. -/
def Instr.wellFormed : Instr → Bool
  | .voidTransaction bytes => leading bytes != 1 && leading bytes != 2
  | .requestCheckFailed bytes => !goodRequest bytes
  | .unknownRequest code params => unclaimed code params && fits 0 params
  | .tableRead params | .start params | .stop params | .restart params | .allClear params | .recallPiston params
  | .setLevel params | .lookup params | .nextRecord params | .silence params | .readAttention params
  | .clearAttention params | .writeAttentionEnable params | .readCounters params | .clearCounters params
  | .readDirty params | .nextFault params => fits 0 params
  | .tableWriteRank params | .tableWriteStop params | .tableWriteSlotMap params | .tableWriteReturnMap params
  | .tableWritePort params | .tableWriteLink params | .tableWriteRail params | .tableWriteGrant params
  | .tableWriteCombination params | .tableWriteCrescendo params | .tableWriteExpression params
  | .tableWriteMute params | .readStatusPort params | .readStatusRail params | .readStatusLink params
  | .readStatusExpression params | .readStatusStopSets params | .readStatusMode params | .clearFaultOne params
  | .clearFaultAll params => fits 1 params
  | .powerOnReset _ | .requestDiscarded | .fetch _ | .startMark _ | .earlyStartMark _ | .scanFrame _ _
  | .watchdogExpiry _ | .driveTimerExpiry _ | .waitTimerExpiry _ | .pullTimerExpiry _ | .settleTimerExpiry _
  | .strikeTimerExpiry _ | .cycleTimerExpiry _ | .protectionTimerExpiry _ | .periodTimerExpiry _
  | .keepAliveExpiry _ | .onDemandFrameStart _ | .frameSent _ | .replyPeriodClose _ _ => true

end Sys2Proof
end

