-- ==== Sys2Proof/Decode.lean ====
section
/-! DEFINITION. The opcode table gives no row any bits, so no table word spells a command. What the host clocks in
under SELECT does: `decodeTransaction` reads a whole transaction into its command (R159, R162, R177), and
`encodeTransaction` writes the transaction of a command that is one. -/

namespace Sys2Proof

/-- The command a word spells by the bits of spec/opcode_table.json: none, for no row has bits. -/
def decodeTableWord (_nbits _w : Nat) : Option Instr :=
  none

/-- TABLE_WRITE of a table (R177, R178). -/
def decodeTableWrite (params rest : List Byte) : Nat → Instr
  | 0 => .tableWriteRank rest
  | 1 => .tableWriteStop rest
  | 2 => .tableWriteSlotMap rest
  | 3 => .tableWriteReturnMap rest
  | 4 => .tableWritePort rest
  | 5 => .tableWriteLink rest
  | 6 => .tableWriteRail rest
  | 7 => .tableWriteGrant rest
  | 8 => .tableWriteCombination rest
  | 9 => .tableWriteCrescendo rest
  | 10 => .tableWriteExpression rest
  | 11 => .tableWriteMute rest
  | _ => .unknownRequest 0x11 params

/-- READ_STATUS of an item (R177, R180). -/
def decodeReadStatus (params rest : List Byte) : Nat → Instr
  | 0 => .readStatusPort rest
  | 1 => .readStatusRail rest
  | 2 => .readStatusLink rest
  | 3 => .readStatusExpression rest
  | 4 => .readStatusStopSets rest
  | 5 => .readStatusMode rest
  | _ => .unknownRequest 0x50 params

/-- CLEAR_FAULT by its selector (R177, R179). -/
def decodeClearFault (params rest : List Byte) : Nat → Instr
  | 0 => .clearFaultOne rest
  | 1 => .clearFaultAll rest
  | _ => .unknownRequest 0x81 params

/-- A good request by its code and parameters (R162, R177). -/
def decodeRequest (code : Byte) (params : List Byte) : Instr :=
  match code.toNat with
  | 0x10 => .tableRead params
  | 0x11 => decodeTableWrite params params.tail (leading params)
  | 0x20 => .start params
  | 0x21 => .stop params
  | 0x22 => .restart params
  | 0x30 => .allClear params
  | 0x31 => .recallPiston params
  | 0x32 => .setLevel params
  | 0x40 => .lookup params
  | 0x41 => .nextRecord params
  | 0x42 => .silence params
  | 0x50 => decodeReadStatus params params.tail (leading params)
  | 0x60 => .readAttention params
  | 0x61 => .clearAttention params
  | 0x62 => .writeAttentionEnable params
  | 0x70 => .readCounters params
  | 0x71 => .clearCounters params
  | 0x80 => .readDirty params
  | 0x81 => decodeClearFault params params.tail (leading params)
  | 0x82 => .nextFault params
  | _ => .unknownRequest code params

/-- A request transaction by the bytes after 01: judged by its check first (R159), then decoded. Bytes after the check
byte are set aside. -/
def decodeAfterOpening (bytes : List Byte) : Instr :=
  match bytes with
  | code :: length :: rest =>
    if goodRequest bytes then decodeRequest code (rest.take length.toNat) else .requestCheckFailed bytes
  | _ => .requestCheckFailed bytes

/-- A service-port transaction by the bytes the host clocks in from the fall of SELECT to its rise (R159, R177). One
in which SELECT falls and rises with no byte between is void: DESIGN CHOICE, the spec names only a first byte other
than 01 and 02 (log 21). -/
def decodeTransaction (bytes : List Byte) : Instr :=
  match bytes with
  | [] => .voidTransaction []
  | b :: rest =>
    if b = 0x01#8 then decodeAfterOpening rest
    else if b = 0x02#8 then .fetch rest.length
    else .voidTransaction bytes

/-- The transaction of a good request: 01, the code, the length, the parameters, the check byte (R177). -/
def requestTransaction (code : Byte) (params : List Byte) : List Byte :=
  [0x01#8, code, BitVec.ofNat 8 params.length] ++ params
    ++ [Machine.checkByte (code :: BitVec.ofNat 8 params.length :: params)]

/-- A transaction of a command that is one; none for the events of the other lines and for REQUEST_DISCARDED, which
any request transaction is while a response is outstanding (R161). -/
def encodeTransaction : Instr → Option (List Byte)
  | .voidTransaction bytes => some bytes
  | .requestCheckFailed bytes => some (0x01#8 :: bytes)
  | .unknownRequest code params => some (requestTransaction code params)
  | .fetch clocked => some (0x02#8 :: List.replicate clocked 0xFF#8)
  | .tableRead p => some (requestTransaction 0x10 p)
  | .tableWriteRank p => some (requestTransaction 0x11 (0 :: p))
  | .tableWriteStop p => some (requestTransaction 0x11 (1 :: p))
  | .tableWriteSlotMap p => some (requestTransaction 0x11 (2 :: p))
  | .tableWriteReturnMap p => some (requestTransaction 0x11 (3 :: p))
  | .tableWritePort p => some (requestTransaction 0x11 (4 :: p))
  | .tableWriteLink p => some (requestTransaction 0x11 (5 :: p))
  | .tableWriteRail p => some (requestTransaction 0x11 (6 :: p))
  | .tableWriteGrant p => some (requestTransaction 0x11 (7 :: p))
  | .tableWriteCombination p => some (requestTransaction 0x11 (8 :: p))
  | .tableWriteCrescendo p => some (requestTransaction 0x11 (9 :: p))
  | .tableWriteExpression p => some (requestTransaction 0x11 (10 :: p))
  | .tableWriteMute p => some (requestTransaction 0x11 (11 :: p))
  | .start p => some (requestTransaction 0x20 p)
  | .stop p => some (requestTransaction 0x21 p)
  | .restart p => some (requestTransaction 0x22 p)
  | .allClear p => some (requestTransaction 0x30 p)
  | .recallPiston p => some (requestTransaction 0x31 p)
  | .setLevel p => some (requestTransaction 0x32 p)
  | .lookup p => some (requestTransaction 0x40 p)
  | .nextRecord p => some (requestTransaction 0x41 p)
  | .silence p => some (requestTransaction 0x42 p)
  | .readStatusPort p => some (requestTransaction 0x50 (0 :: p))
  | .readStatusRail p => some (requestTransaction 0x50 (1 :: p))
  | .readStatusLink p => some (requestTransaction 0x50 (2 :: p))
  | .readStatusExpression p => some (requestTransaction 0x50 (3 :: p))
  | .readStatusStopSets p => some (requestTransaction 0x50 (4 :: p))
  | .readStatusMode p => some (requestTransaction 0x50 (5 :: p))
  | .readAttention p => some (requestTransaction 0x60 p)
  | .clearAttention p => some (requestTransaction 0x61 p)
  | .writeAttentionEnable p => some (requestTransaction 0x62 p)
  | .readCounters p => some (requestTransaction 0x70 p)
  | .clearCounters p => some (requestTransaction 0x71 p)
  | .readDirty p => some (requestTransaction 0x80 p)
  | .clearFaultOne p => some (requestTransaction 0x81 (0 :: p))
  | .clearFaultAll p => some (requestTransaction 0x81 (1 :: p))
  | .nextFault p => some (requestTransaction 0x82 p)
  | .powerOnReset _ | .requestDiscarded | .startMark _ | .earlyStartMark _ | .scanFrame _ _ | .watchdogExpiry _
  | .driveTimerExpiry _ | .waitTimerExpiry _ | .pullTimerExpiry _ | .settleTimerExpiry _ | .strikeTimerExpiry _
  | .cycleTimerExpiry _ | .protectionTimerExpiry _ | .periodTimerExpiry _ | .keepAliveExpiry _
  | .onDemandFrameStart _ | .frameSent _ | .replyPeriodClose _ _ => none

end Sys2Proof
end

