-- ==== Sys2Proof/Machine/Operands.lean ====
section
/-! DEFINITION. The operand forms of the requests: the codes of R178, each table entry read from its bytes with the
range checks its rule makes and written back to bytes for TABLE_READ, and the record and set payloads of R180.
A reader answers none where the write is refused with RANGE. -/

namespace Sys2Proof.Machine

/-! ### Codes (R178) -/

/-- A port byte: A 1, B 2; any other names no port (R178, R179). -/
def portOfCode : Nat → Option PortId
  | 1 => some .A
  | 2 => some .B
  | _ => none

/-- A flag byte: 0 or 1; any other names no flag (R178, R179). -/
def flagOfCode : Nat → Option Bool
  | 0 => some false
  | 1 => some true
  | _ => none

/-- The code of a flag (R178). -/
def flagCode (b : Bool) : Nat :=
  if b then 1 else 0

/-- The code of a port that may be absent; 0 is NONE (R178). -/
def holderCode : Option PortId → Nat
  | none => 0
  | some p => portCode p

/-- A rank kind by its code (R178). -/
def rankKindOfCode : Nat → Option RankKind
  | 0 => some .unused
  | 1 => some .pipe
  | 2 => some .strike
  | 3 => some .reiterate
  | 4 => some .held
  | 5 => some .tremulant
  | _ => none

/-- The code of a rank kind (R178). -/
def rankKindCode : RankKind → Nat
  | .unused => 0
  | .pipe => 1
  | .strike => 2
  | .reiterate => 3
  | .held => 4
  | .tremulant => 5

/-- A stop kind by its code (R178). -/
def stopKindOfCode : Nat → Option StopKind
  | 0 => some .unused
  | 1 => some .voice
  | 2 => some .fixed
  | 3 => some .tremulant
  | _ => none

/-- The code of a stop kind (R178). -/
def stopKindCode : StopKind → Nat
  | .unused => 0
  | .voice => 1
  | .fixed => 2
  | .tremulant => 3

/-- A touch by its code (R178). -/
def touchOfCode : Nat → Option Touch
  | 0 => some .first
  | 1 => some .second
  | _ => none

/-- The code of a touch (R178). -/
def touchCode : Touch → Nat
  | .first => 0
  | .second => 1

/-- A break mode by its code (R178). -/
def breakOfCode : Nat → Option BreakMode
  | 0 => some .silent
  | 1 => some .fold
  | _ => none

/-- The code of a break mode (R178). -/
def breakCode : BreakMode → Nat
  | .silent => 0
  | .fold => 1

/-- A slot kind by its code (R178). -/
def slotKindOfCode : Nat → Option SlotKind
  | 0 => some .unused
  | 1 => some .keys
  | 2 => some .tabs
  | 3 => some .pistons
  | 4 => some .expression
  | _ => none

/-- The code of a slot kind (R178). -/
def slotKindCode : SlotKind → Nat
  | .unused => 0
  | .keys => 1
  | .tabs => 2
  | .pistons => 3
  | .expression => 4

/-- A return slot kind by its code (R178). -/
def returnKindOfCode : Nat → Option ReturnKind
  | 0 => some .unused
  | 1 => some .tabDriveOn
  | 2 => some .tabDriveOff
  | 3 => some .indicator
  | _ => none

/-- The code of a return slot kind (R178). -/
def returnKindCode : ReturnKind → Nat
  | .unused => 0
  | .tabDriveOn => 1
  | .tabDriveOff => 2
  | .indicator => 3

/-- A link mode by its code (R178). -/
def linkModeOfCode : Nat → Option LinkMode
  | 0 => some .periodic
  | 1 => some .onDemand
  | _ => none

/-- The code of a link mode (R178). -/
def linkModeCode : LinkMode → Nat
  | .periodic => 0
  | .onDemand => 1

/-- The code of an expression target (R178). -/
def targetCode : ExprTarget → Nat
  | .none => 0
  | .shade => 1
  | .crescendo => 2

/-- The code of a record kind, that of the rank kind it was copied from (R178, R180). -/
def recordKindCode : RecordKind → Nat
  | .pipe => 1
  | .strike => 2
  | .reiterate => 3
  | .held => 4

/-- The code of a record state (R178). -/
def recordStateCode : RecordState → Nat
  | .waiting => 0
  | .pulling => 1
  | .speaking => 2
  | .striking => 3
  | .resting => 4
  | .struck => 5
  | .locked => 6
  | .settling => 7

/-- The code of a status (R177). -/
def statusCode : Status → Nat
  | .ok => 0
  | .check => 1
  | .unknown => 2
  | .mode => 3
  | .range => 4
  | .inUse => 5
  | .overlap => 6
  | .notFound => 7
  | .configError => 8

/-- The code of a port state (R180). -/
def portStateCode : PortState → Nat
  | .off => 0
  | .seeking => 1
  | .online => 2
  | .lost => 3

/-- The code of a link state (R180). -/
def linkStateCode : LinkState → Nat
  | .idle => 0
  | .up => 1
  | .down => 2

/-- The code of an operation in flight (R180). -/
def flightCode : Flight → Nat
  | .free => 0
  | .sending => 1
  | .reply => 2

/-- The code of a mode (R180). -/
def modeCode : Mode → Nat
  | .config => 0
  | .run => 1
  | .quiescing => 2

/-- A cause as its priority; 0 is NONE (R180). -/
def causeCode : Option Cause → Nat
  | none => 0
  | some c => Cause.bit c + 1

/-- Whether a value lies in a range, both ends included (0.9 convention 2). -/
def within (lo hi n : Nat) : Bool :=
  lo ≤ n && n ≤ hi

/-! ### RANK entries (R1, R2, R178) -/

/-- The kinds with records: PIPE, STRIKE, REITERATE, HELD (R1). -/
def usesNotes (k : RankKind) : Bool :=
  k == .pipe || k == .strike || k == .reiterate || k == .held

/-- The kinds that are held at hold units after a pull (R1). -/
def usesHold (k : RankKind) : Bool :=
  k == .pipe || k == .held

/-- The kinds that strike (R1). -/
def usesStrike (k : RankKind) : Bool :=
  k == .strike || k == .reiterate

/-- A value kept only when the kind uses the field, else 0 (R2). -/
def keepIf (used : Bool) (n : Nat) : Nat :=
  if used then n else 0

/-- The entry that the 17 bytes from place `i` on spell for a kind, with unused fields stored as 0 (R2, R178). The slot
and bit bytes of a STRIKE or REITERATE rank's absent damper are not kept: the model's choice (log 23). -/
def rankEntryAt (bs : List Byte) (i : Nat) (k : RankKind) : RankEntry :=
  let placed := k != .unused
  { kind := k
    low := keepIf (usesNotes k) (byteAt bs (i + 1))
    count := keepIf placed (byteAt bs (i + 2))
    link := keepIf placed (byteAt bs (i + 3))
    slot := keepIf placed (byteAt bs (i + 4))
    bit := keepIf placed (byteAt bs (i + 5))
    rail := keepIf (usesNotes k) (byteAt bs (i + 6))
    pull := keepIf (usesNotes k) (byteAt bs (i + 7))
    hold := keepIf (usesHold k) (byteAt bs (i + 8))
    pullTime := keepIf (usesHold k) (byteAt bs (i + 9))
    minOff := keepIf (usesNotes k) (byteAt bs (i + 10))
    strikeTime := keepIf (usesStrike k) (byteAt bs (i + 11))
    period := keepIf (k == .reiterate) (byteAt bs (i + 12))
    maxHold := keepIf (k == .held) (byteAt bs (i + 13))
    damper := if usesStrike k && byteAt bs (i + 14) == 1 then some (byteAt bs (i + 15), byteAt bs (i + 16)) else none }

/-- The damper bytes against R2 and check 1 of R4: a STRIKE or REITERATE rank names a flag and, when present, a slot
and bit in range; any other kind but UNUSED names no damper (log 11). -/
def damperBytesFit (bs : List Byte) (i : Nat) (k : RankKind) : Bool :=
  match k with
  | .unused => true
  | _ =>
    let present := byteAt bs (i + 14)
    if usesStrike k then
      present == 0 || (present == 1 && within 0 47 (byteAt bs (i + 15)) && within 0 15 (byteAt bs (i + 16)))
    else present == 0

/-- Every field a kind uses is in its range of R2, hold units and reiteration period against 0 to 255 and 20 to 255
alone (check 1 of R4). Fields the kind does not use are not judged. -/
def rankFieldsFit (e : RankEntry) : Bool :=
  match e.kind with
  | .unused => true
  | .tremulant => e.count == 1 && within 0 3 e.link && within 0 47 e.slot && within 0 15 e.bit
  | k =>
    within 0 127 e.low && within 1 97 e.count && within 0 3 e.link && within 0 47 e.slot && within 0 15 e.bit
      && within 0 3 e.rail && within 1 255 e.pull && within 0 63 e.minOff
      && (!usesHold k || (within 0 255 e.hold && within 1 63 e.pullTime))
      && (!usesStrike k || within 1 63 e.strikeTime)
      && (k != .reiterate || within 20 255 e.period)
      && (k != .held || within 0 255 e.maxHold)

/-- Read a RANK entry: none where check 1 of R4 refuses it. -/
def readRankEntry (bs : List Byte) (i : Nat) : Option RankEntry :=
  match rankKindOfCode (byteAt bs i) with
  | none => none
  | some k =>
    let e := rankEntryAt bs i k
    if rankFieldsFit e && damperBytesFit bs i k then some e else none

/-- A RANK entry as its 17 bytes (R178). That an absent damper's slot and bit read 0 on a STRIKE or REITERATE rank is the
model's choice (log 23). -/
def rankEntryBytes (e : RankEntry) : List Byte :=
  [rankKindCode e.kind, e.low, e.count, e.link, e.slot, e.bit, e.rail, e.pull, e.hold, e.pullTime, e.minOff,
    e.strikeTime, e.period, e.maxHold, flagCode e.damper.isSome, (e.damper.getD (0, 0)).1,
    (e.damper.getD (0, 0)).2].map byte

/-! ### STOP entries (R7, R8, R178) -/

/-- A byte read as a signed number (R178). -/
def signedAt (bs : List Byte) (i : Nat) : Int :=
  (bs.getD i 0).toInt

/-- The two window keys lie within a division's compass; low may stand above high (R8). -/
def windowFits (division low high : Nat) : Bool :=
  low < Config.compass division && high < Config.compass division

/-- Read a STOP entry: none where R8 refuses it. -/
def readStopEntry (bs : List Byte) (i : Nat) : Option StopEntry :=
  let division := byteAt bs i
  let rank := byteAt bs (i + 3)
  let low := byteAt bs (i + 6)
  let high := byteAt bs (i + 7)
  match stopKindOfCode (byteAt bs (i + 1)) with
  | none => none
  | some .unused => some StopEntry.unset
  | some .tremulant =>
    if within 0 4 division && within 0 63 rank then
      some { StopEntry.unset with division := division, kind := .tremulant, rank := rank }
    else none
  | some .fixed =>
    match touchOfCode (byteAt bs (i + 2)) with
    | none => none
    | some touch =>
      if within 0 5 division && (division != 5 || touch == .first) && within 0 63 rank
          && within 0 96 (byteAt bs (i + 5)) && windowFits division low high then
        some { StopEntry.unset with
          division := division, kind := .fixed, touch := touch, rank := rank, pipe := byteAt bs (i + 5),
          windowLow := low, windowHigh := high }
      else none
  | some .voice =>
    match touchOfCode (byteAt bs (i + 2)), breakOfCode (byteAt bs (i + 8)) with
    | some touch, some breakMode =>
      let offset := signedAt bs (i + 4)
      if within 0 4 division && within 0 63 rank && decide (-24 ≤ offset ∧ offset ≤ 48)
          && windowFits division low high then
        some { StopEntry.unset with
          division := division, kind := .voice, touch := touch, rank := rank, offset := offset, windowLow := low,
          windowHigh := high, breakMode := breakMode }
      else none
    | _, _ => none

/-- A STOP entry as its 9 bytes (R178). -/
def stopEntryBytes (e : StopEntry) : List Byte :=
  [byte e.division, byte (stopKindCode e.kind), byte (touchCode e.touch), byte e.rank, BitVec.ofInt 8 e.offset,
    byte e.pipe, byte e.windowLow, byte e.windowHigh, byte (breakCode e.breakMode)]

/-! ### SLOT_MAP and RETURN_MAP entries (R129, R130, R131, R178) -/

/-- An UNUSED slot map entry (R130). -/
def SlotEntry.unset : SlotEntry :=
  { kind := .unused, division := 0, touch := .first, first := 0, debounce := 0 }

/-- Read a SLOT_MAP entry: none where R130 refuses it. -/
def readSlotEntry (bs : List Byte) (i : Nat) : Option SlotEntry :=
  let division := byteAt bs (i + 1)
  let first := byteAt bs (i + 3)
  let debounce := byteAt bs (i + 4)
  match slotKindOfCode (byteAt bs i) with
  | none => none
  | some .unused => some SlotEntry.unset
  | some .expression => some { SlotEntry.unset with kind := .expression }
  | some .keys =>
    match touchOfCode (byteAt bs (i + 2)) with
    | none => none
    | some touch =>
      if within 0 5 division && first < Config.compass division && within 1 4 debounce
          && (division != 5 || touch == .first) then
        some { kind := .keys, division := division, touch := touch, first := first, debounce := debounce }
      else none
  | some .tabs =>
    if within 1 4 debounce then some { SlotEntry.unset with kind := .tabs, first := first, debounce := debounce }
    else none
  | some .pistons =>
    if within 0 63 first && within 1 4 debounce then
      some { SlotEntry.unset with kind := .pistons, first := first, debounce := debounce }
    else none

/-- A SLOT_MAP entry as its 5 bytes (R178). -/
def slotEntryBytes (e : SlotEntry) : List Byte :=
  [slotKindCode e.kind, e.division, touchCode e.touch, e.first, e.debounce].map byte

/-- An UNUSED return slot map entry (R131). -/
def ReturnEntry.unset : ReturnEntry :=
  { kind := .unused, firstStop := 0 }

/-- Read a RETURN_MAP entry, the first stop kept for the two drive kinds alone: none where R131 refuses it. -/
def readReturnEntry (bs : List Byte) (i : Nat) : Option ReturnEntry :=
  match returnKindOfCode (byteAt bs i) with
  | none => none
  | some .unused => some ReturnEntry.unset
  | some .indicator => some { kind := .indicator, firstStop := 0 }
  | some k => some { kind := k, firstStop := byteAt bs (i + 1) }

/-- A RETURN_MAP entry as its 2 bytes (R178). -/
def returnEntryBytes (e : ReturnEntry) : List Byte :=
  [returnKindCode e.kind, e.firstStop].map byte

/-! ### PORT, LINK, RAIL, MUTE entries (R127, R146, R66, R150, R178) -/

/-- Read a PORT entry: none where R128 refuses it. -/
def readPortEntry (bs : List Byte) (i : Nat) : Option PortEntry :=
  let n := byteAt bs (i + 1)
  let m := byteAt bs (i + 2)
  let drive := wordAt bs (i + 5)
  match flagOfCode (byteAt bs i) with
  | none => none
  | some enabled =>
    if within 2 64 n && within 0 32 m && m ≤ n && within 2 250 (byteAt bs (i + 3)) && within 1 15 (byteAt bs (i + 4))
        && within 20 500 drive && drive % 10 == 0 then
      some { enabled := enabled, dataSlots := n, returnSlots := m, watchdog := byteAt bs (i + 3),
             recovery := byteAt bs (i + 4), drivePeriod := drive }
    else none

/-- A PORT entry as its 7 bytes (R178). -/
def portEntryBytes (e : PortEntry) : List Byte :=
  [flagCode e.enabled, e.dataSlots, e.returnSlots, e.watchdog, e.recovery].map byte ++ bytes2 e.drivePeriod

/-- Read a LINK entry, a field its mode does not use stored as 0: none where R147 refuses it. -/
def readLinkEntry (bs : List Byte) (i : Nat) : Option LinkEntry :=
  let slots := byteAt bs (i + 1)
  let rate := byteAt bs (i + 2)
  let period := byteAt bs (i + 4)
  let keepAlive := wordAt bs (i + 5)
  let threshold := byteAt bs (i + 7)
  match flagOfCode (byteAt bs i), linkModeOfCode (byteAt bs (i + 3)) with
  | some enabled, some mode =>
    if within 1 48 slots && within 1 15 threshold && within 0 2 rate
        && (mode != .periodic || within 1 20 period)
        && (mode != .onDemand || (within 10 1000 keepAlive && keepAlive % 10 == 0)) then
      some { enabled := enabled, slots := slots, rate := rate, mode := mode,
             period := keepIf (mode == .periodic) period, keepAlive := keepIf (mode == .onDemand) keepAlive,
             downThreshold := threshold }
    else none
  | _, _ => none

/-- A LINK entry as its 8 bytes (R178). -/
def linkEntryBytes (e : LinkEntry) : List Byte :=
  [flagCode e.enabled, e.slots, e.rate, linkModeCode e.mode, e.period].map byte ++ bytes2 e.keepAlive
    ++ [byte e.downThreshold]

/-- Read a RAIL entry: none where R67 refuses it. -/
def readRailEntry (bs : List Byte) (i : Nat) : Option RailEntry :=
  let capacity := wordAt bs i
  let high := wordAt bs (i + 2)
  let low := wordAt bs (i + 4)
  let limit := byteAt bs (i + 6)
  if within 1 4095 capacity && within 2 4095 high && within 1 4094 low && within 1 255 limit && low < high
      && high ≤ capacity then
    some { capacity := capacity, high := high, low := low, deferLimit := limit }
  else none

/-- A RAIL entry as its 7 bytes (R178). -/
def railEntryBytes (e : RailEntry) : List Byte :=
  bytes2 e.capacity ++ bytes2 e.high ++ bytes2 e.low ++ [byte e.deferLimit]

/-- Read a MUTE entry: none where R150 refuses it. -/
def readMuteEntry (bs : List Byte) (i : Nat) : Option MuteWindow :=
  match flagOfCode (byteAt bs (i + 4)) with
  | none => none
  | some enabled =>
    if wordAt bs i ≤ 4095 ∧ wordAt bs (i + 2) ≤ 4095 then
      some { base := BitVec.ofNat 12 (wordAt bs i), mask := BitVec.ofNat 12 (wordAt bs (i + 2)), enabled := enabled }
    else none

/-- A MUTE entry as its 5 bytes (R178). -/
def muteEntryBytes (w : MuteWindow) : List Byte :=
  bytes2 w.base.toNat ++ bytes2 w.mask.toNat ++ [byte (flagCode w.enabled)]

/-! ### EXPRESSION entries (R115, R116, R178) -/

/-- Read an EXPRESSION entry: none where the field ranges of check 1 of R116 refuse it. The shade range's end and the
source slot's mapping are judged with the state (`exprFault`). A CRESCENDO entry's link and outlet bytes are
neither checked nor kept. -/
def readExprEntry (bs : List Byte) (i : Nat) : Option ExprEntry :=
  let slot := byteAt bs (i + 2)
  let offset := wordAt bs (i + 3)
  let low := wordAt bs (i + 5)
  let high := wordAt bs (i + 7)
  let count := byteAt bs (i + 11)
  let link := byteAt bs (i + 13)
  let outSlot := byteAt bs (i + 14)
  let outBit := byteAt bs (i + 15)
  let stages := byteAt bs (i + 16)
  match flagOfCode (byteAt bs i), portOfCode (byteAt bs (i + 1)), flagOfCode (byteAt bs (i + 10)) with
  | some enabled, some port, some detect =>
    if within 0 63 slot && offset ≤ 4095 && low ≤ 4095 && high ≤ 4095 && low < high && within 1 15 count then
      let e : ExprEntry :=
        { enabled := enabled, port := some port, slot := slot, offset := offset, low := low, high := high,
          hysteresis := byteAt bs (i + 9), faultDetect := detect, faultCount := count, target := .crescendo,
          link := 0, outSlot := 0, outBit := 0, stages := stages }
      match byteAt bs (i + 12) with
      | 1 =>
        if within 0 3 link && within 0 47 outSlot && within 0 15 outBit && within 1 12 stages then
          some { e with target := .shade, link := link, outSlot := outSlot, outBit := outBit }
        else none
      | 2 => if within 1 15 stages then some e else none
      | _ => none
    else none
  | _, _, _ => none

/-- An EXPRESSION entry as its 17 bytes (R178). -/
def exprEntryBytes (e : ExprEntry) : List Byte :=
  [flagCode e.enabled, holderCode e.port, e.slot].map byte ++ bytes2 e.offset ++ bytes2 e.low ++ bytes2 e.high
    ++ [e.hysteresis, flagCode e.faultDetect, e.faultCount, targetCode e.target, e.link, e.outSlot, e.outBit,
      e.stages].map byte

/-! ### Records (R180) -/

/-- A timer in two bytes, whole milliseconds remaining; none is FFFF (R180). -/
def timerBytes : Option Nat → List Byte
  | none => [0xFF, 0xFF]
  | some n => bytes2 n

/-- A claim as port, division, touch, key, stop (R180). -/
def claimBytes (c : Claim) : List Byte :=
  [portCode c.port, c.division, touchCode c.touch, c.key, c.stop].map byte

/-- A record as LOOKUP and NEXT_RECORD give it (R41, R65, R180). -/
def recordBytes (i : Nat) (r : Record) : List Byte :=
  bytes2 i ++ [r.rank, r.pipe, recordKindCode r.kind, recordStateCode r.state, r.claims.length].map byte
    ++ r.claims.flatMap claimBytes ++ [byte r.charge] ++ timerBytes r.phase ++ timerBytes r.cycle
    ++ timerBytes r.protection
    ++ [flagCode r.restrike + 2 * flagCode r.overdue + 4 * flagCode r.paused, r.strikeCount].map byte

/-- A cause set in two bytes (R177, R180). -/
def causeSetBytes (x : CauseSet) : List Byte :=
  bytes2 x.toNat

end Sys2Proof.Machine
end

