-- ==== Sys2Proof/Machine/Contacts.lean ====
section
/-! DEFINITION. The contacts of a console port (R129): which are mapped, and what the accepted image says of a key, a
tab and a piston code. -/

namespace Sys2Proof.Machine

/-- The slot map entry of a position; UNUSED beyond the map. -/
def slotAt (c : ConsolePort) (i : Nat) : SlotEntry :=
  look c.slotMap i SlotEntry.unset

/-- The return slot map entry of a position. -/
def returnAt (c : ConsolePort) (i : Nat) : ReturnEntry :=
  look c.returnMap i ReturnEntry.unset

/-- The image word of a position. -/
def imageAt (c : ConsolePort) (i : Nat) : Word :=
  look c.image i 0

/-- A contact of an entry is mapped: its key lies in its division's compass, its stop is at most 255, its code at most
63; a slot of another kind maps nothing (R129). -/
def mappedBy (e : SlotEntry) (b : Nat) : Bool :=
  match e.kind with
  | .unused => false
  | .keys => e.first + b < Config.compass e.division
  | .tabs => e.first + b ≤ 255
  | .pistons => e.first + b ≤ 63
  | .expression => false

/-- Contact `b` of slot `i` is mapped; no contact of a slot at or above N is (R129). -/
def mapped (c : ConsolePort) (i b : Nat) : Bool :=
  decide (i < c.entry.dataSlots) && mappedBy (slotAt c i) b

/-- The contacts that the frame carries, in slot order and within a slot in contact order (R142). -/
def frameContacts (c : ConsolePort) : List (Nat × Nat) :=
  (List.range c.entry.dataSlots).flatMap fun i => (List.range 16).map fun b => (i, b)

/-- Some contact of slot `i` that the test accepts is mapped and made in the accepted image. -/
def slotMade (c : ConsolePort) (i : Nat) (f : SlotEntry → Nat → Bool) : Bool :=
  (List.range 16).any fun b => mapped c i b && f (slotAt c i) b && (imageAt c i).getLsbD b

/-- Some mapped contact that the test accepts is made in the accepted image. -/
def anyMade (c : ConsolePort) (f : SlotEntry → Nat → Bool) : Bool :=
  (List.range c.entry.dataSlots).any fun i => slotMade c i f

/-- A contact is the one of a key of a division at a touch (R129). -/
def isKey (d : Nat) (t : Touch) (k : Nat) (e : SlotEntry) (b : Nat) : Bool :=
  e.kind == .keys && e.division == d && e.touch == t && e.first + b == k

/-- A contact is the tab of a stop (R129). -/
def isTab (stop : Nat) (e : SlotEntry) (b : Nat) : Bool :=
  e.kind == .tabs && e.first + b == stop

/-- A contact is of a piston code (R129). -/
def isPiston (code : Nat) (e : SlotEntry) (b : Nat) : Bool :=
  e.kind == .pistons && e.first + b == code

/-- A key of a division is made at a touch in the accepted image (R89). -/
def keyMade (c : ConsolePort) (d : Nat) (t : Touch) (k : Nat) : Bool :=
  anyMade c (isKey d t k)

/-- The keys of a division made at a touch, ascending (R89). -/
def keysMade (c : ConsolePort) (d : Nat) (t : Touch) : List Nat :=
  (List.range (Config.compass d)).filter fun k => keyMade c d t k

/-- Some tab contact of a stop is made (R85, R93, R107). -/
def tabMade (c : ConsolePort) (stop : Nat) : Bool :=
  anyMade c (isTab stop)

/-- A stop has at least one tab contact mapped to it (R95, R107). -/
def hasTab (c : ConsolePort) (stop : Nat) : Bool :=
  (frameContacts c).any fun x => mapped c x.1 x.2 && isTab stop (slotAt c x.1) x.2

/-- SET is made at the port: some contact mapped to code 40 is made (R101). -/
def setMade (c : ConsolePort) : Bool :=
  anyMade c (isPiston 40)

end Sys2Proof.Machine
end

