-- ==== Sys2Proof/Machine/Resolver.lean ====
section
/-! DEFINITION. The Resolver (Chapter 1): the outlet positions a rank occupies, and the resolution of a division, key
and stop to a rank and pipe or to silence (R3, R14 to R17). -/

namespace Sys2Proof.Machine

/-! ### Placement (R3, R4) -/

/-- The first position of a rank (R3). -/
def firstPosition (e : RankEntry) : Nat :=
  position e.slot e.bit

/-- The position of a rank's pipe on its link (R3). -/
def pipePosition (e : RankEntry) (pipe : Nat) : Nat :=
  firstPosition e + pipe

/-- Runs of consecutive positions (first, length) that a rank's pipes occupy (R4). -/
def pipeRun (e : RankEntry) : List (Nat × Nat) :=
  if e.kind = .unused then [] else [(firstPosition e, e.count)]

/-- The position of a rank's damper outlet, as a run, when present (R3). -/
def damperRun (e : RankEntry) : List (Nat × Nat) :=
  match e.kind, e.damper with
  | .unused, _ => []
  | _, none => []
  | _, some (slot, bit) => [(position slot bit, 1)]

/-- The shade range of an expression entry whose target is SHADE, enabled or not (R115, R4). -/
def shadeRun (e : ExprEntry) : List (Nat × Nat) :=
  if e.target = .shade then [(position e.outSlot e.outBit, e.stages)] else []

/-- Two runs share a position; an empty run has none. -/
def runsMeet (a b : Nat × Nat) : Bool :=
  a.1 < b.1 + b.2 && b.1 < a.1 + a.2 && 0 < a.2 && 0 < b.2

/-- Some run of one list shares a position with some run of another. -/
def anyMeet (xs ys : List (Nat × Nat)) : Bool :=
  xs.any fun x => ys.any fun y => runsMeet x y

/-! ### Resolution (R13 to R17) -/

/-- A key lies within a stop's window (R13). -/
def inWindow (e : StopEntry) (k : Nat) : Bool :=
  e.windowLow ≤ k && k ≤ e.windowHigh

/-- A note at or above `top` lowered by octaves until it is below (R16): the number of octaves is the least that
suffices. -/
def lowerBelow (top n : Int) : Int :=
  if n < top then n else n - 12 * ((n - top) / 12 + 1)

/-- A note below `low` raised by octaves until it is at or above (R16). -/
def raiseTo (low n : Int) : Int :=
  if low ≤ n then n else n + 12 * ((low - n + 11) / 12)

/-- The pipe a rank gives a note, or silence outside its range (R15). -/
def pipeOfNote (r : RankEntry) (n : Int) : Option Nat :=
  if (r.low : Int) ≤ n ∧ n < (r.low : Int) + r.count then some (n - r.low).toNat else none

/-- The note a VOICE stop asks for (R15). -/
def noteOf (e : StopEntry) (d k : Nat) : Int :=
  (Config.baseNote d : Int) + k + e.offset

/-- The pipe of a VOICE stop: its note, folded by octaves when the break mode is FOLD (R15, R16). -/
def voicePipe (e : StopEntry) (r : RankEntry) (d k : Nat) : Option Nat :=
  let n := noteOf e d k
  match e.breakMode with
  | .silent => pipeOfNote r n
  | .fold =>
    if (r.low : Int) + r.count ≤ n then pipeOfNote r (lowerBelow ((r.low : Int) + r.count) n)
    else pipeOfNote r (raiseTo r.low n)

/-- The pipe of a FIXED stop, silence when the rank has no such pipe (R17). -/
def fixedPipe (e : StopEntry) (r : RankEntry) : Option Nat :=
  if e.pipe < r.count then some e.pipe else none

/-- The Resolver's answer for a division, a key and a stop: a rank and pipe, or silence (R14). -/
def resolve (s : State) (d k stop : Nat) : Option (Nat × Nat) :=
  let e := stopAt s stop
  let r := rankAt s e.rank
  if e.division = d ∧ inWindow e k = true ∧ (recordKind? r.kind).isSome = true then
    match e.kind with
    | .unused => none
    | .tremulant => none
    | .voice => (voicePipe e r d k).map fun p => (e.rank, p)
    | .fixed => (fixedPipe e r).map fun p => (e.rank, p)
  else none

end Sys2Proof.Machine
end

