-- ==== Sys2Proof/Machine/Supply.lean ====
section
/-! DEFINITION. The supply allocator (Chapter 4): the admission request (R70), strain (R76), the head-of-line pass
(R75), the resumption of paused rolls (R56), and the allocator's work when current comes back (R74). -/

namespace Sys2Proof.Machine

/-! ### Strain (R76) -/

/-- The strain of a rail after a judgment on its draw: STRAINED above the high watermark, NORMAL below the low one,
otherwise as before (R76). -/
def judged (r : Rail) : Bool :=
  if r.entry.high < r.draw then true else if r.draw < r.entry.low then false else r.strained

/-- Judge strain on rail `k` (R76). -/
def judgeStrain (s : State) (k : Nat) : State :=
  setRail s k { railAt s k with strained := judged (railAt s k) }

/-! ### Admission (R30, R32, R48, R70) -/

/-- A record as it stands when its rail admits it: PULLING for PIPE and HELD, with a HELD record's protection timer
when its rank has a maximum hold (R30, R32, R59); STRIKING for STRIKE and REITERATE, with its strike counted and a
REITERATE record's cycle timer started (R48, R49). -/
def energize (e : RankEntry) (r : Record) : Record :=
  match r.kind with
  | .pipe => { r with state := .pulling, charge := e.pull, phase := some e.pullTime, overdue := false }
  | .held =>
    { r with
      state := .pulling, charge := e.pull, phase := some e.pullTime, overdue := false
      protection := if e.maxHold = 0 then none else some (100 * e.maxHold) }
  | .strike =>
    { r with
      state := .striking, charge := e.pull, phase := some e.strikeTime, overdue := false
      strikeCount := min 255 (r.strikeCount + 1) }
  | .reiterate =>
    { r with
      state := .striking, charge := e.pull, phase := some e.strikeTime, overdue := false
      strikeCount := min 255 (r.strikeCount + 1), cycle := some e.period, cycleHeld := false, paused := false }

/-- A record as it stands when its request is deferred: WAITING at charge 0, its wait timer started at the rail's
defer limit (R30, R47). -/
def waitFor (rail : Rail) (r : Record) : Record :=
  { r with
    state := .waiting, charge := 0, phase := some rail.entry.deferLimit, cycle := none, cycleHeld := false
    protection := none, paused := false }

/-- Rail `k` admits the record `r` of index `i`: the draw rises by its pull units, and strain is judged on the risen
draw (R70, R76). -/
def admitRecord (s : State) (i : Nat) (r : Record) : State :=
  judgeStrain (storeRecord s i (energize (rankAt s r.rank) r)) (railOf s r)

/-- The rail defers the record `r` of index `i`: to the tail of the deferred list, counted (R70). -/
def deferRecord (s : State) (i : Nat) (r : Record) : State :=
  let k := railOf s r
  let s1 := storeRecord s i (waitFor (railAt s k) r)
  bump (setRail s1 k { railAt s1 k with deferred := (railAt s1 k).deferred ++ [i] }) .deferredAdmissions

/-- Whether a rail admits `pull` further units now: its list is empty and they fit (R70). -/
def admitsNow (rail : Rail) (pull : Nat) : Bool :=
  rail.deferred.isEmpty && decide (rail.draw + pull ≤ rail.entry.capacity)

/-- The admission request of the record at index `i`, answered at once (R30, R70). -/
def admissionRequest (s : State) (i : Nat) : State :=
  match recordAt s i with
  | none => s
  | some r =>
    if admitsNow (railAt s (railOf s r)) (rankAt s r.rank).pull then admitRecord s i r else deferRecord s i r

/-! ### The allocator's work (R56, R73 to R75) -/

/-- The head-of-line pass of rail `k`, for at most `fuel` admissions: the head leaves the list and is admitted while
its pull units fit; it stops at the first head that does not fit (R75). -/
def headPass (k : Nat) : Nat → State → State
  | 0, s => s
  | fuel + 1, s =>
    match (railAt s k).deferred with
    | [] => s
    | i :: rest =>
      match recordAt s i with
      | none => s
      | some r =>
        if (railAt s k).draw + (rankAt s r.rank).pull ≤ (railAt s k).entry.capacity then
          headPass k fuel (admitRecord (setRail s k { railAt s k with deferred := rest }) i r)
        else s

/-- The resumption at one index: a paused REITERATE record of rail `k` clears its flag and asks for its stroke
(R56). -/
def resumeAt (k : Nat) (s : State) (i : Nat) : State :=
  match recordAt s i with
  | none => s
  | some r =>
    if r.kind = .reiterate ∧ r.paused = true ∧ railOf s r = k then
      admissionRequest (setRecord s i (some { r with paused := false })) i
    else s

/-- The resumption of rail `k`: its paused records in ascending index (R56). -/
def resumption (s : State) (k : Nat) : State :=
  (occupied s).foldl (resumeAt k) s

/-- The allocator's work on rail `k`: strain, then the pass, then the resumption if the judgment moved the rail from
STRAINED to NORMAL (R74). -/
def allocatorWork (s : State) (k : Nat) : State :=
  let s1 := judgeStrain s k
  let s2 := headPass k (railAt s1 k).deferred.length s1
  if (railAt s k).strained && !(railAt s1 k).strained then resumption s2 k else s2

/-- The work of a single event on rail `k`: done when the draw fell between the two states (R65, R73). -/
def workIfFell (before after : State) (k : Nat) : State :=
  if (railAt after k).draw < (railAt before k).draw then allocatorWork after k else after

/-- The rail's draw fell, or a record left its deferred list, between the two states (R73). -/
def railTouched (before after : State) (k : Nat) : Bool :=
  decide ((railAt after k).draw < (railAt before k).draw)
    || decide ((railAt after k).deferred.length < (railAt before k).deferred.length)

/-- The work after a release request taken whole: on each rail it touched (R73). -/
def workAfterRelease (before after : State) : State :=
  four.foldl (fun s k => if railTouched before after k then allocatorWork s k else s) after

end Sys2Proof.Machine
end

