-- ==== Sys2Proof/Machine/Sounding.lean ====
section
/-! DEFINITION. The sounding table (Chapters 2 and 3): claim requests (R23 to R25), release requests (R26 to R28), the
last release and the settle outcome of each kind and state, the expiries of a record's timers, and the dampers. -/

namespace Sys2Proof.Machine

/-! ### Claim requests (R23, R24, R25) -/

/-- A new record for a rank and pipe with its one claim (R19, R24). The state named here is overwritten by the
admission outcome in the same step. -/
def newRecord (kind : RecordKind) (rank pipe : Nat) (c : Claim) : Record :=
  { rank := rank, pipe := pipe, kind := kind, state := .waiting, claims := [c], charge := 0, phase := none,
    cycle := none, protection := none, restrike := false, overdue := false, paused := false, strikeCount := 0,
    cycleHeld := false }

/-- Whether a claim that joins a record sets its restrike pending flag: a STRIKE record in STRIKING or SETTLING (R51),
or a REITERATE record in STRIKING whose cycle timer is none (R54, R57). -/
def joinSetsRestrike (r : Record) : Bool :=
  match r.kind, r.state with
  | .strike, .striking => true
  | .strike, .settling => true
  | .reiterate, .striking => r.cycle.isNone
  | _, _ => false

/-- A record with a claim joined at the tail of its list (R23). -/
def joined (r : Record) (c : Claim) : Record :=
  { r with claims := r.claims ++ [c], restrike := r.restrike || joinSetsRestrike r }

/-- A claim joins the record `r` at index `i`; a STRIKE record in STRUCK asks for its stroke at once (R51). -/
def joinClaim (s : State) (i : Nat) (r : Record) (c : Claim) : State :=
  let s1 := setRecord s i (some (joined r c))
  if r.kind = .strike ∧ r.state = .struck then admissionRequest s1 i else s1

/-- A claim request of identity `c` for a rank and pipe: ignored as a duplicate, refused for overflow, joined (R23);
a record created at the lowest FREE index (R24); or refused for a full table (R25). -/
def claimRequest (s : State) (c : Claim) (rank pipe : Nat) : State :=
  match findRecord s rank pipe with
  | some i =>
    match recordAt s i with
    | none => s
    | some r =>
      if c ∈ r.claims then bump s .duplicateClaims
      else if Config.maxClaims ≤ r.claims.length then raise (bump s .claimOverflows) .claimOverflow (.number i)
      else joinClaim s i r c
  | none =>
    match recordKind? (rankAt s rank).kind with
    | none => s
    | some kind =>
      match lowestFree s with
      | none => raise (bump s .tableFullClaims) .tableFull (.rankPipe rank pipe)
      | some i => admissionRequest (setRecord s i (some (newRecord kind rank pipe c))) i

/-! ### Settling (R36, R38, R39, R52, R58) -/

/-- A record entering SETTLING: magnet off, charge 0, settle timer at the rank's minimum off time (R36, R50, R54, R57,
R61). -/
def settling (e : RankEntry) (r : Record) : Record :=
  { r with
    state := .settling, charge := 0, phase := some e.minOff, cycle := none, cycleHeld := false, protection := none
    paused := false }

/-- The record at index `i` enters SETTLING as `r`. -/
def enterSettling (s : State) (i : Nat) (r : Record) : State :=
  storeRecord s i (settling (rankAt s r.rank) r)

/-- The outcome of a settle expiry at index `i`: freed on an empty list; else a STRIKE record with restrike pending
clear rests in STRUCK, and every other record makes an admission request (R38, R52, R58). -/
def settleOutcome (s : State) (i : Nat) : State :=
  match recordAt s i with
  | none => s
  | some r =>
    if r.claims = [] then freeRecord s i
    else if r.kind = .strike ∧ r.restrike = false then
      setRecord s i (some { r with state := .struck, phase := none })
    else admissionRequest (setRecord s i (some { r with restrike := false, phase := none })) i

/-- A rank with minimum off time 0 takes the settle outcome in the same step (R39). -/
def settleAtOnce (s : State) (i : Nat) : State :=
  match recordAt s i with
  | none => s
  | some r => if (rankAt s r.rank).minOff = 0 then settleOutcome s i else s

/-! ### Release requests (R26, R27, R28) -/

/-- What a release request names (R26); `record` is the pattern of SILENCE (R43). -/
inductive Pattern where
  | key (port : PortId) (division : Nat) (touch : Touch) (key : Nat)
  | stop (stop : Nat)
  | port (port : PortId)
  | division (port : PortId) (division : Nat)
  | all
  | record (index : Nat)
  deriving DecidableEq, Repr

/-- A claim of the record at index `i` matches a pattern (R26, R43). -/
def matchesPattern (pat : Pattern) (i : Nat) (c : Claim) : Bool :=
  match pat with
  | .key p d t k => c.port == p && c.division == d && c.touch == t && c.key == k
  | .stop n => c.stop == n
  | .port p => c.port == p
  | .division p d => c.port == p && c.division == d
  | .all => true
  | .record j => i == j

/-- The claims of a record that a release request leaves, in their order (R27). -/
def keptClaims (pat : Pattern) (i : Nat) (r : Record) : List Claim :=
  r.claims.filter fun c => !matchesPattern pat i c

/-- Index `i` leaves the deferred list of rail `k`, the records behind it closing up (R71). -/
def leaveDeferred (s : State) (k i : Nat) : State :=
  setRail s k { railAt s k with deferred := (railAt s k).deferred.filter fun j => j != i }

/-- The last release of the record at index `i`, standing as `r` with its emptied list, by its state: freed from
WAITING (R33) and STRUCK (R53); to SETTLING from PULLING and SPEAKING (R36), RESTING (R57) and LOCKED (R61); a pulse
in STRIKING runs on, a REITERATE record's cycle timer cancelled (R53, R57); SETTLING runs on (R37). -/
def lastRelease (s : State) (i : Nat) (r : Record) : State :=
  match r.state with
  | .waiting => freeRecord (leaveDeferred s (railOf s r) i) i
  | .struck => freeRecord s i
  | .pulling => settleAtOnce (enterSettling s i r) i
  | .speaking => settleAtOnce (enterSettling s i r) i
  | .resting => settleAtOnce (enterSettling s i r) i
  | .locked => settleAtOnce (enterSettling s i r) i
  | .striking => setRecord s i (some { r with cycle := none, cycleHeld := false })
  | .settling => setRecord s i (some r)

/-- A release request's visit of index `i` (R27). -/
def releaseVisit (pat : Pattern) (s : State) (i : Nat) : State :=
  match recordAt s i with
  | none => s
  | some r =>
    let kept := keptClaims pat i r
    if kept.length = r.claims.length then s
    else if kept = [] then lastRelease s i { r with claims := [] }
    else setRecord s i (some { r with claims := kept })

/-- A release request's visits, in ascending index (R27). -/
def releaseVisits (s : State) (pat : Pattern) : State :=
  (occupied s).foldl (releaseVisit pat) s

/-- A release request taken whole: its visits, then the allocator's work on each rail it touched (R27, R28, R73). -/
def releaseRequest (s : State) (pat : Pattern) : State :=
  workAfterRelease s (releaseVisits s pat)

/-- The number of claims a release request removes (R43, R44). -/
def claimsRemoved (s : State) (pat : Pattern) : Nat :=
  ((occupied s).map fun i =>
    match recordAt s i with
    | none => 0
    | some r => r.claims.length - (keptClaims pat i r).length).sum

/-! ### Expiries of a record's timers -/

/-- A wait timer's expiry: overdue set and counted, SUPPLY_OVERDUE raised, the record keeping its place (R31, R77). -/
def waitExpiry (s : State) (i : Nat) : State :=
  match recordAt s i with
  | none => s
  | some r =>
    if r.state = .waiting ∧ r.phase.isSome = true then
      raise (bump (setRecord s i (some { r with overdue := true, phase := none })) .overdueWaits) .supplyOverdue
        (.number i)
    else s

/-- A pull timer's expiry: to SPEAKING at the hold charge, the allocator acting on a fall of the draw (R34, R65). -/
def pullExpiry (s : State) (i : Nat) : State :=
  match recordAt s i with
  | none => s
  | some r =>
    if r.state = .pulling ∧ r.phase.isSome = true then
      let e := rankAt s r.rank
      workIfFell s (storeRecord s i { r with state := .speaking, charge := holdCharge e, phase := none }) (railOf s r)
    else s

/-- A settle timer's expiry (R38, R52, R58). -/
def settleExpiry (s : State) (i : Nat) : State :=
  match recordAt s i with
  | none => s
  | some r => if r.state = .settling ∧ r.phase.isSome = true then settleOutcome s i else s

/-- The outcome of a cycle expiry at index `i` in RESTING: the next stroke is asked for on a NORMAL rail, and the
record pauses on a STRAINED one (R55). -/
def cycleOutcome (s : State) (i : Nat) : State :=
  match recordAt s i with
  | none => s
  | some r =>
    let r1 := { r with cycle := none, cycleHeld := false }
    if (railAt s (railOf s r)).strained then setRecord s i (some { r1 with paused := true })
    else admissionRequest (setRecord s i (some r1)) i

/-- A strike timer's expiry. A STRIKE record enters SETTLING whatever its list (R50). A REITERATE record enters RESTING
when it holds claims and restrike pending is clear, otherwise SETTLING with the flag cleared (R54). The allocator acts
on the fall, and then the settle outcome of a rank with minimum off time 0 (R39) or a held cycle expiry's outcome
(R55) is taken, in the same step (log 9). -/
def strikeExpiry (s : State) (i : Nat) : State :=
  match recordAt s i with
  | none => s
  | some r =>
    if r.state = .striking ∧ r.phase.isSome = true then
      let k := railOf s r
      if r.kind = .reiterate ∧ r.claims ≠ [] ∧ r.restrike = false then
        let s1 := workIfFell s
          (storeRecord s i { r with state := .resting, charge := 0, phase := none, cycleHeld := false }) k
        if r.cycleHeld then cycleOutcome s1 i else s1
      else if r.kind = .reiterate then
        settleAtOnce (workIfFell s (enterSettling s i { r with restrike := false }) k) i
      else settleAtOnce (workIfFell s (enterSettling s i r) k) i
    else s

/-- A cycle timer's expiry: its outcome in RESTING; held, and read as 0, in STRIKING (R55). -/
def cycleExpiry (s : State) (i : Nat) : State :=
  match recordAt s i with
  | none => s
  | some r =>
    if r.kind = .reiterate ∧ r.cycle.isSome = true then
      match r.state with
      | .resting => cycleOutcome s i
      | .striking => setRecord s i (some { r with cycle := some 0, cycleHeld := true })
      | _ => s
    else s

/-- A protection timer's expiry in PULLING or SPEAKING: LOCKED with its magnet off, the lockout counted,
MAGNET_PROTECT raised, and the allocator acting on the fall (R60). -/
def protectionExpiry (s : State) (i : Nat) : State :=
  match recordAt s i with
  | none => s
  | some r =>
    if (r.state = .pulling ∨ r.state = .speaking) ∧ r.protection.isSome = true then
      let s1 := storeRecord s i { r with state := .locked, charge := 0, phase := none, protection := none }
      let s2 := raise (bump s1 .lockouts) .magnetProtect (.number i)
      workIfFell s s2 (railOf s r)
    else s

/-! ### Dampers (R62) -/

/-- The damper of a rank is demanded: some record of the rank is in use with a claim in its list (R62). -/
def damperDemanded (s : State) (rank : Nat) : Bool :=
  s.table.toList.any fun
    | none => false
    | some r => r.rank == rank && !r.claims.isEmpty

end Sys2Proof.Machine
end

