-- ==== Sys2Proof/Machine/Registration.lean ====
section
/-! DEFINITION. The Registration unit (Chapter 5): the effective set (R86), its changes (R87 to R89), the tremulant
outputs (R97), keys and tabs (R83, R85, R90, R91), grant changes (R93), and the arrival and loss of a port (R95,
R96). -/

namespace Sys2Proof.Machine

/-! ### The effective set (R86, R118) -/

/-- An entry is an enabled CRESCENDO entry (R86, R116). -/
def isCrescendoEntry (e : ExprEntry) : Bool :=
  e.enabled && e.target == .crescendo

/-- The number of the crescendo entry, if one is enabled (R86, R116). -/
def crescendoEntry (s : State) : Option Nat :=
  (List.range 8).find? fun e => isCrescendoEntry (exprAt s e)

/-- The current crescendo stage: the stage of the crescendo entry, 0 while there is none (R118). -/
def crescendoStage (s : State) : Nat :=
  match crescendoEntry s with
  | none => 0
  | some e => (runAt s e).stage

/-- The source port of the crescendo entry (R86). -/
def crescendoPort (s : State) : Option PortId :=
  match crescendoEntry s with
  | none => none
  | some e => (exprAt s e).port

/-- A stop is a member of the current crescendo stage record with its division granted to the crescendo entry's source
port (R86). One of kind UNUSED counts by the division 0 its entry is stored with (R7; log 10), and brings nothing. -/
def crescendoMember (s : State) (n : Nat) : Bool :=
  (crescendoAt s (crescendoStage s)).getLsbD n && (crescendoPort s).isSome
    && granting s (stopAt s n).division == crescendoPort s

/-- A stop is a FIXED stop of the Effects division (R64, R86). -/
def effectsFixed (s : State) (n : Nat) : Bool :=
  (stopAt s n).kind == .fixed && (stopAt s n).division == 5

/-- A stop is effective (R86). -/
def effective (s : State) (n : Nat) : Bool :=
  s.drawn.getLsbD n || effectsFixed s n || crescendoMember s n

/-- The effective set (R86, R98). -/
def effectiveSet (s : State) : StopSet :=
  bitsOf 256 (effective s) 256

/-! ### Tremulants (R97) -/

/-- A stop is an effective TREMULANT stop that names a rank (R97). -/
def tremulantStop (s : State) (rank n : Nat) : Bool :=
  (stopAt s n).kind == .tremulant && (stopAt s n).rank == rank && effective s n

/-- Some effective TREMULANT stop names a rank (R5, R97). -/
def tremulantNamed (s : State) (rank : Nat) : Bool :=
  (List.range 256).any fun n => tremulantStop s rank n

/-- The standing output of a rank taken afresh: in RUN, on while the rank is TREMULANT and an effective TREMULANT stop
names it (R97). -/
def retakeTremulant (s : State) (rank : Nat) : State :=
  setTremulant s rank (s.mode == .run && (rankAt s rank).kind == .tremulant && tremulantNamed s rank)

/-! ### Claims for a key and a stop (R18, R89, R90) -/

/-- Ask the Resolver for a key and a stop, and make a claim request of its answer; silence makes nothing (R18, R89). -/
def claimFor (s : State) (p : PortId) (d : Nat) (t : Touch) (k stop : Nat) : State :=
  match resolve s d k stop with
  | none => s
  | some (rank, pipe) =>
    claimRequest s { port := p, division := d, touch := t, key := k, stop := stop } rank pipe

/-- The claims of a stop coming on: every key of its division made at its touch in the granting port's image, in
ascending key order (R89). -/
def claimHeldKeys (s : State) (n : Nat) : State :=
  let e := stopAt s n
  match granting s e.division with
  | none => s
  | some p =>
    (keysMade (portAt s p) e.division e.touch).foldl (fun s k => claimFor s p e.division e.touch k n) s

/-- A stop going off, by its kind (R88). -/
def goOff (s : State) (n : Nat) : State :=
  match (stopAt s n).kind with
  | .unused => s
  | .tremulant => retakeTremulant s (stopAt s n).rank
  | .voice => releaseRequest s (.stop n)
  | .fixed => releaseRequest s (.stop n)

/-- A stop coming on, by its kind; `claims` says whether this event makes its claims (R89, R93 step 4, R95 step 1). -/
def comeOn (claims : Bool) (s : State) (n : Nat) : State :=
  match (stopAt s n).kind with
  | .unused => s
  | .tremulant => retakeTremulant s (stopAt s n).rank
  | .voice => if claims then claimHeldKeys s n else s
  | .fixed => if claims then claimHeldKeys s n else s

/-- A change of the effective set from `before` to what it is now: the stops going off, then the stops coming on, each
in ascending number (R87). -/
def changeEffective (claims : Bool) (before : StopSet) (s : State) : State :=
  let now := effectiveSet s
  (members (now &&& ~~~ before)).foldl (comeOn claims) ((members (before &&& ~~~ now)).foldl goOff s)

/-! ### Keys and tabs (R83, R85, R90, R91) -/

/-- An ungranted action of a port is counted, and nothing else is done (R83). -/
def ungranted (s : State) (p : PortId) : State :=
  bump s (.ungranted p)

/-- A stop answers a key make of a division and touch: an effective VOICE or FIXED stop of both (R90). -/
def answersKey (s : State) (d : Nat) (t : Touch) (n : Nat) : Bool :=
  let e := stopAt s n
  (e.kind == .voice || e.kind == .fixed) && e.division == d && e.touch == t && effective s n

/-- A key make taken from the granting port: every stop that answers it, in ascending number (R90). -/
def playKey (s : State) (p : PortId) (d : Nat) (t : Touch) (k : Nat) : State :=
  ((List.range 256).filter (answersKey s d t)).foldl (fun s n => claimFor s p d t k n) s

/-- A key make of a port (R90, R64). -/
def keyMake (s : State) (p : PortId) (d : Nat) (t : Touch) (k : Nat) : State :=
  if holds s p d then playKey s p d t k else ungranted s p

/-- A key break of a port (R91). -/
def keyBreak (s : State) (p : PortId) (d : Nat) (t : Touch) (k : Nat) : State :=
  if holds s p d then releaseRequest s (.key p d t k) else ungranted s p

/-- The stops driven at a port's recall slot (R103). -/
def driveSet (c : ConsolePort) : StopSet :=
  c.recallSlot.driveOn ||| c.recallSlot.driveOff

/-- A tab event of a port for a stop (R85). -/
def tabEvent (s : State) (p : PortId) (n : Nat) (made : Bool) : State :=
  let e := stopAt s n
  if e.kind = .unused ∨ e.division = 5 then s
  else if holds s p e.division = false then ungranted s p
  else if (driveSet (portAt s p)).getLsbD n = true then s
  else if s.drawn.getLsbD n = made then s
  else changeEffective true (effectiveSet s) (setDrawn s (withBit s.drawn n made))

/-! ### Grant changes (R93) -/

/-- The stops of a division, of a kind other than UNUSED (R93). -/
def stopsOf (s : State) (d : Nat) : StopSet :=
  bitsOf 256 (fun n => (stopAt s n).kind != .unused && (stopAt s n).division == d) 256

/-- The stops that a port's tabs show made (R93). -/
def tabsMade (c : ConsolePort) : StopSet :=
  bitsOf 256 (tabMade c) 256

/-- Stops taken out of a port's drive set, its timer and pending piston kept (R10, R93, R106). -/
def undrive (s : State) (p : PortId) (x : StopSet) : State :=
  let c := portAt s p
  setPort s p { c with
    recallSlot := { c.recallSlot with driveOn := c.recallSlot.driveOn &&& ~~~ x, driveOff := c.recallSlot.driveOff &&& ~~~ x } }

/-- The drawn set after step 3 of a grant change of division `d` to `q` (R93). -/
def drawnFromTabs (s : State) (d : Nat) (q : Option PortId) : StopSet :=
  if d = 5 then s.drawn
  else
    let tabs : StopSet := match q with
      | none => 0
      | some p => tabsMade (portAt s p)
    (s.drawn &&& ~~~ stopsOf s d) ||| (tabs &&& stopsOf s d)

/-- One key of a division played at FIRST and then SECOND touch where it is made (R93 step 5, R95 step 2). -/
def playHeldKey (p : PortId) (d : Nat) (s : State) (k : Nat) : State :=
  let s1 := if keyMade (portAt s p) d .first k then keyMake s p d .first k else s
  if keyMade (portAt s1 p) d .second k then keyMake s1 p d .second k else s1

/-- A port's made keys of a division, ascending, FIRST before SECOND (R93 step 5, R95 step 2). -/
def playHeldKeys (s : State) (p : PortId) (d : Nat) : State :=
  (List.range (Config.compass d)).foldl (playHeldKey p d) s

/-- Step 1 of a grant change: the old holder's claims of the division go (R93). -/
def releaseHolder (s : State) (d : Nat) : Option PortId → State
  | none => s
  | some p => releaseRequest s (.division p d)

/-- Step 2 of a grant change: the old holder's drives on the division are cancelled (R93). -/
def undriveHolder (s : State) (d : Nat) : Option PortId → State
  | none => s
  | some p => undrive s p (stopsOf s d)

/-- Step 5 of a grant change: the new holder's held keys are played (R93). -/
def playHolder (s : State) (d : Nat) : Option PortId → State
  | none => s
  | some p => playHeldKeys s p d

/-- A grant change of division `d` to holder `q`, its five steps (R93). -/
def grantChange (s : State) (d : Nat) (q : Option PortId) : State :=
  let old := granting s d
  let before := effectiveSet s
  let s0 := { s with grants := put s.grants d q }
  let s2 := undriveHolder (releaseHolder s0 d old) d old
  let s3 := setDrawn s2 (drawnFromTabs s2 d q)
  playHolder (changeEffective false before s3) d q

/-! ### Ports arriving and lost (R95, R96) -/

/-- A stop's drawn state is taken from a port's tabs at its arrival: a stop of a division the port holds, of a kind
other than UNUSED, with a tab on the port, and not driven at it; a stop of division 5 is never drawn (R84, R95). -/
def takesTab (s : State) (p : PortId) (n : Nat) : Bool :=
  let e := stopAt s n
  e.kind != .unused && e.division != 5 && holds s p e.division && hasTab (portAt s p) n
    && !(driveSet (portAt s p)).getLsbD n

/-- The drawn set after step 1 of a port's arrival (R95). -/
def drawnAtArrival (s : State) (p : PortId) : StopSet :=
  let taken : StopSet := bitsOf 256 (takesTab s p) 256
  (s.drawn &&& ~~~ taken) ||| (tabsMade (portAt s p) &&& taken)

/-- A port's arrival: its tabs, without claims, and then its held keys by division, key and touch (R95). -/
def arrival (s : State) (p : PortId) : State :=
  let s1 := changeEffective false (effectiveSet s) (setDrawn s (drawnAtArrival s p))
  (List.range 6).foldl (fun s d => if holds s p d then playHeldKeys s p d else s) s1

/-- A port's loss releases every claim it holds (R96). -/
def portLoss (s : State) (p : PortId) : State :=
  releaseRequest s (.port p)

end Sys2Proof.Machine
end

