-- ==== Sys2Proof/Machine/Expression.lean ====
section
/-! DEFINITION. The Expression unit (Chapter 7): the fault check (R120), the stage (R121, R122), the targets (R123,
R124) and the walk of a frame's values (R119). -/

namespace Sys2Proof.Machine

/-! ### The stage (R121, R122) -/

/-- The stage of a value: 0 at or below the low limit, S at or above the high limit, and the band between (R121). -/
def stageOf (e : ExprEntry) (v : Nat) : Nat :=
  if v ≤ e.low then 0
  else if e.high ≤ v then e.stages
  else (v - e.low) * e.stages / (e.high - e.low)

/-- The corrected value of a raw value: less the offset, or 0 when the offset exceeds it (R121). -/
def corrected (e : ExprEntry) (raw : Nat) : Nat :=
  raw - e.offset

/-- The new stage from the current stage and a corrected value, with hysteresis (R122). -/
def newStage (e : ExprEntry) (s c : Nat) : Nat :=
  let candidate := stageOf e c
  if candidate = s then s
  else if s < candidate then max s (stageOf e (c - e.hysteresis))
  else min s (stageOf e (c + e.hysteresis))

/-! ### The fault check (R120) -/

/-- A raw value is extreme (R120). -/
def extreme (raw : Nat) : Bool :=
  raw == 0 || raw == 4095

/-- The run state after the fault check, whether the stage is held for this frame, and whether EXPRESSION_FAULT is
raised (R120). -/
def faultCheck (e : ExprEntry) (r : ExprRun) (raw : Nat) : ExprRun × Bool × Bool :=
  if e.faultDetect = false then (r, false, false)
  else if r.faulted = false then
    if extreme raw then
      if e.faultCount ≤ r.runCount + 1 then ({ r with faulted := true, runCount := 0 }, true, true)
      else ({ r with runCount := r.runCount + 1 }, false, false)
    else ({ r with runCount := 0 }, false, false)
  else if extreme raw then ({ r with runCount := 0 }, true, false)
  else if e.faultCount ≤ r.runCount + 1 then ({ r with faulted := false, runCount := 0 }, false, false)
  else ({ r with runCount := r.runCount + 1 }, true, false)

/-! ### Targets (R123, R124) -/

/-- The stage of an entry becomes `stage`. A SHADE entry's outlets follow the stage (R123); the crescendo entry's
stage is one change of the effective set (R124). -/
def setStage (s : State) (e stage : Nat) : State :=
  let s1 := setRun s e { runAt s e with stage := stage }
  if isCrescendoEntry (exprAt s e) then changeEffective true (effectiveSet s) s1 else s1

/-- One entry worked on a raw value: last value, fault check, stage, output (R119). -/
def workEntry (s : State) (e raw : Nat) : State :=
  let entry := exprAt s e
  let run := { runAt s e with lastValue := raw }
  let checked := faultCheck entry run raw
  let s1 := setRun s e checked.1
  let s2 := if checked.2.2 then raise s1 .expressionFault (.number e) else s1
  if checked.2.1 then s2
  else
    let stage := newStage entry run.stage (corrected entry raw)
    if stage = run.stage then s2 else setStage s2 e stage

/-! ### The walk (R119) -/

/-- The raw value an EXPRESSION slot carries: its low twelve bits (R129, R174). -/
def rawValue (data : List Word) (slot : Nat) : Nat :=
  (data.getD slot 0).toNat % 4096

/-- An entry is worked for a frame of a port: its source is the port, and its slot is in the frame and mapped
EXPRESSION (R119). -/
def feeds (c : ConsolePort) (p : PortId) (e : ExprEntry) : Bool :=
  e.port == some p && decide (e.slot < c.entry.dataSlots) && (slotAt c e.slot).kind == .expression

/-- The walk of the list from entry `e` on, `left` entries long, ending at the first disabled entry (R119). -/
def walkFrom (p : PortId) (data : List Word) : Nat → Nat → State → State
  | 0, _, s => s
  | left + 1, e, s =>
    let entry := exprAt s e
    if entry.enabled = false then s
    else
      walkFrom p data left (e + 1)
        (if feeds (portAt s p) p entry then workEntry s e (rawValue data entry.slot) else s)

/-- The walk of the expression list for one frame's values (R119). -/
def walk (s : State) (p : PortId) (data : List Word) : State :=
  walkFrom p data 8 0 s

end Sys2Proof.Machine
end

