-- ==== Sys2Proof/Machine/Pistons.lean ====
section
/-! DEFINITION. The piston unit (Chapter 6): piston makes and levels (R101, R102), recall and cancel (R104, R105), the
drive's end (R107), the cancelled recall slot (R108), the setter's capture (R109) and the dirty list (R113). -/

namespace Sys2Proof.Machine

/-- What a recall press or a RECALL comes to (R110). -/
inductive RecallOutcome where
  | executed
  | pending
  | ungranted
  | level
  | none
  deriving DecidableEq, Repr

/-- The code of an outcome (R180). -/
def outcomeCode : RecallOutcome → Nat
  | .executed => 0
  | .pending => 1
  | .ungranted => 2
  | .level => 3
  | .none => 4

/-! ### Levels (R102) -/

/-- The state with a port's level set. -/
def setPortLevel (s : State) (p : PortId) (level : Nat) : State :=
  setPort s p { portAt s p with level := level }

/-- LEVEL UP: the port's level rises by 1, at 15 it stays (R102). -/
def levelUp (s : State) (p : PortId) : State :=
  setPortLevel s p (min 15 ((portAt s p).level + 1))

/-- LEVEL DOWN: the port's level falls by 1, at 0 it stays (R102). -/
def levelDown (s : State) (p : PortId) : State :=
  setPortLevel s p ((portAt s p).level - 1)

/-! ### Recall and cancel (R100, R104, R105) -/

/-- The divisions in the scope of a recall press's code (R100, R104). -/
def scopeOf (code : Nat) : List Nat :=
  if code ≤ 9 ∨ code = 41 then [0, 1, 2, 3, 4]
  else if code ≤ 39 then [(code - 10) / 6]
  else [code - 42]

/-- The held scope: the divisions of a code's scope whose grant the port holds (R104). -/
def heldScope (s : State) (p : PortId) (code : Nat) : List Nat :=
  (scopeOf code).filter fun d => holds s p d

/-- The record a recall reads: the combination record of the code at the port's level, or the empty set for a cancel
(R105). -/
def recallRecord (s : State) (p : PortId) (code : Nat) : StopSet :=
  if code ≤ 39 then combinationAt s (portAt s p).level code else 0

/-- The stops of a kind other than UNUSED whose division is in a list (R105). -/
def stopsIn (s : State) (held : List Nat) : StopSet :=
  bitsOf 256 (fun n => (stopAt s n).kind != .unused && held.contains (stopAt s n).division) 256

/-- The drawn set a recall leaves: in the held scope the record's members, outside it as it was (R105 step 1). -/
def drawnByRecall (s : State) (held : List Nat) (record : StopSet) : StopSet :=
  (s.drawn &&& ~~~ stopsIn s held) ||| (record &&& stopsIn s held)

/-- The state with a port's recall slot replaced. -/
def setRecall (s : State) (p : PortId) (r : RecallSlot) : State :=
  setPort s p { portAt s p with recallSlot := r }

/-- A recall executed at a port with its held scope: drawn states, effective change, drive (R105). -/
def recallExecute (s : State) (p : PortId) (code : Nat) (held : List Nat) : State :=
  let old := s.drawn
  let new := drawnByRecall s held (recallRecord s p code)
  let s2 := changeEffective true (effectiveSet s) (setDrawn s new)
  setRecall s2 p
    { (portAt s2 p).recallSlot with
      inProgress := true, driveOn := new &&& ~~~ old, driveOff := old &&& ~~~ new
      timer := some (portAt s2 p).entry.drivePeriod }

/-- A recall press of a code 0 to 39 or 41 to 46 at a port (R104). -/
def recallPress (s : State) (p : PortId) (code : Nat) : State × RecallOutcome :=
  let held := heldScope s p code
  if held = [] then (ungranted s p, .ungranted)
  else if (portAt s p).recallSlot.inProgress then
    (setRecall s p { (portAt s p).recallSlot with pendingPiston := some code }, .pending)
  else (recallExecute s p code held, .executed)

/-- A code is that of a cancel piston (R101). -/
def isCancel (code : Nat) : Bool :=
  within 41 46 code

/-! ### The setter and the dirty list (R109, R113) -/

/-- A captured record's name enters the dirty list of a state, or sets its overflow flag; the first append to an empty
list raises COMBINATION_CHANGED with the port (R113). -/
def dirtyAppend (s : State) (p : PortId) (name : Nat × Nat) : State :=
  if s.dirty.contains name then s
  else if s.dirty.length < Config.maxDirty then
    let s1 := { s with dirty := s.dirty ++ [name] }
    if s.dirty.isEmpty then raise s1 .combinationChanged (.port p) else s1
  else { s with dirtyOverflow := true }

/-- The record a capture stores: in the held scope the drawn stops, outside it the members it had; a divisional record
is replaced by the drawn stops of its division (R109). -/
def capturedRecord (s : State) (code : Nat) (held : List Nat) (record : StopSet) : StopSet :=
  let scope := stopsIn s held
  if code ≤ 9 then (record &&& ~~~ scope) ||| (s.drawn &&& scope) else s.drawn &&& scope

/-- The state with one combination record replaced (R100). -/
def setCombination (s : State) (level code : Nat) (x : StopSet) : State :=
  { s with combination := put s.combination (40 * level + code) x }

/-- A capture of a code 0 to 39 at a port (R109). -/
def capture (s : State) (p : PortId) (code : Nat) : State :=
  let held := heldScope s p code
  let level := (portAt s p).level
  if held = [] then ungranted s p
  else
    dirtyAppend (setCombination s level code (capturedRecord s code held (combinationAt s level code))) p (level, code)

/-! ### Piston makes (R101) -/

/-- What a piston code does at a port when it does not capture (R101, R110). -/
def pistonAction (s : State) (p : PortId) (code : Nat) : State × RecallOutcome :=
  if code ≤ 39 || isCancel code then recallPress s p code
  else if code = 47 then (levelUp s p, .level)
  else if code = 48 then (levelDown s p, .level)
  else (s, .none)

/-- A piston make from a console: a capture while SET is made and the code is 0 to 39, else its action (R101, R109). -/
def pistonMake (s : State) (p : PortId) (code : Nat) : State :=
  if code ≤ 39 && setMade (portAt s p) then capture s p code else (pistonAction s p code).1

/-! ### The drive's end (R107, R108) -/

/-- A driven stop whose tab reading on the port differs from its drawn state (R107). -/
def tabMismatch (s : State) (p : PortId) (n : Nat) : Bool :=
  hasTab (portAt s p) n && tabMade (portAt s p) n != s.drawn.getLsbD n

/-- One driven stop of the mismatch check (R107). -/
def checkTab (p : PortId) (s : State) (n : Nat) : State :=
  if tabMismatch s p n then raise (bump s .tabMismatches) .tabMismatch (.number n) else s

/-- The mismatch check of a port's drive set, in ascending stop number, made only while the port is ONLINE (R107). -/
def mismatchCheck (s : State) (p : PortId) : State :=
  if (portAt s p).state = .online then (members (driveSet (portAt s p))).foldl (checkTab p) s else s

/-- A port's recall slot left idle: cancelled (R108), or cleared at the drive's end (R107). -/
def idleRecall (s : State) (p : PortId) : State :=
  setRecall s p RecallSlot.idle

/-- A drive timer's expiry: the check, the clearing, and the pending piston taken as a fresh press (R107). -/
def driveExpiry (s : State) (p : PortId) : State :=
  let slot := (portAt s p).recallSlot
  if slot.timer.isSome then
    let s2 := idleRecall (mismatchCheck s p) p
    match slot.pendingPiston with
    | none => s2
    | some code => (recallPress s2 p code).1
  else s

end Sys2Proof.Machine
end

