-- ==== Sys2Proof/Machine/Console.lean ====
section
/-! DEFINITION. The console links (Chapter 8): the receiver (R132, R133), the judged frame (R134), the port states
(R135 to R140), debounce and events (R141, R142), and the return frames (R143, R144). The meanings of START_MARK,
EARLY_START_MARK, SCAN_FRAME, WATCHDOG_EXPIRY and DRIVE_TIMER_EXPIRY. -/

namespace Sys2Proof.Machine

/-! ### Return frames (R143, R144) -/

/-- The word of sixteen coils from a first stop on; a bit beyond stop 255 is 0 (R131, R144). -/
def coilWord (x : StopSet) (firstStop : Nat) : Word :=
  bitsOf 16 (fun b => x.getLsbD (firstStop + b)) 16

/-- The indicator word of a port: level in bits 0 to 3, SET in bit 4, the divisions it holds in bits 5 to 10 (R144,
R174). -/
def indicatorWord (s : State) (p : PortId) : Word :=
  BitVec.ofNat 16 ((portAt s p).level % 16)
    ||| (if setMade (portAt s p) then BitVec.twoPow 16 4 else 0)
    ||| bitsOf 16 (fun b => decide (5 ≤ b) && decide (b ≤ 10) && holds s p (b - 5)) 16

/-- The contents of return slot `i` of a port (R144). -/
def returnWord (s : State) (p : PortId) (i : Nat) : Word :=
  let e := returnAt (portAt s p) i
  match e.kind with
  | .unused => 0
  | .tabDriveOn => coilWord (portAt s p).recallSlot.driveOn e.firstStop
  | .tabDriveOff => coilWord (portAt s p).recallSlot.driveOff e.firstStop
  | .indicator => indicatorWord s p

/-- The return slots of a port, in order (R143). -/
def returnSlots (s : State) (p : PortId) : List Word :=
  (List.range (portAt s p).entry.returnSlots).map (returnWord s p)

/-- A return frame: the latched slots and their check value (R143, R176). -/
def returnFrameOf (s : State) (p : PortId) : List Word :=
  returnSlots s p ++ [checkWord (returnSlots s p)]

/-! ### Port states (R135, R136, R137, R139) -/

/-- A port with its image all open and its counts 0 (R135, R139). -/
def clearedImage (c : ConsolePort) : ConsolePort :=
  { c with image := Vector.replicate 64 0, debounce := Vector.replicate 1024 0, good := 0 }

/-- A port gone OFF: image, counts, watchdog, receiver and return frame cleared, and its slot boundaries forgotten
(R135, R176). -/
def portOff (c : ConsolePort) : ConsolePort :=
  { clearedImage c with
    state := .off, receiver := .idle, framing := .unset, watchdog := none, overtaken := false, returnFrame := none }

/-- A port at START: an enabled one SEEKING with its receiver waiting, a disabled one OFF (R132, R135). -/
def portStarted (c : ConsolePort) : ConsolePort :=
  if c.entry.enabled then { portOff c with state := .seeking, receiver := .waiting } else portOff c

/-- The word a slot of the accepted image takes directly from a frame: its mapped contacts (R137 step 1). -/
def baselineWord (c : ConsolePort) (data : List Word) (i : Nat) : Word :=
  bitsOf 16 (fun b => mapped c i b && (data.getD i 0).getLsbD b) 16

/-- The accepted image taken directly from a frame (R137 step 1). -/
def baselineImage (c : ConsolePort) (data : List Word) : Vector Word 64 :=
  ⟨⟨(List.range 64).map (baselineWord c data)⟩, by simp⟩

/-- A port that enters ONLINE on a frame, as step 1 of R137 leaves it. -/
def portOnline (c : ConsolePort) (data : List Word) : ConsolePort :=
  { clearedImage c with
    state := .online, image := baselineImage c data, watchdog := some c.entry.watchdog }

/-- A port enters ONLINE: baseline, PORT_ONLINE, arrival, and the baseline's expression values (R137). -/
def enterOnline (s : State) (p : PortId) (data : List Word) : State :=
  let s1 := setPort s p (portOnline (portAt s p) data)
  walk (arrival (raise s1 .portOnline (.port p)) p) p data

/-- A valid frame in SEEKING or LOST: the good-frame count rises, and at the recovery count the port enters ONLINE
(R136). -/
def goodFrame (s : State) (p : PortId) (data : List Word) : State :=
  let c := portAt s p
  if c.entry.recovery ≤ c.good + 1 then enterOnline s p data else setPort s p { c with good := c.good + 1 }

/-- An invalid frame for the port state: the good-frame count goes to 0 in SEEKING and LOST; in ONLINE it is taken by
nothing (R136, R138). -/
def invalidFrame (s : State) (p : PortId) : State :=
  setPort s p { portAt s p with good := 0 }

/-- The loss of an ONLINE port, its four steps (R139). -/
def losePort (s : State) (p : PortId) : State :=
  let s1 := setPort s p { clearedImage (portAt s p) with state := .lost, watchdog := none, overtaken := false }
  raise (portLoss (idleRecall s1 p) p) .portLost (.port p)

/-! ### Debounce and events (R141, R142) -/

/-- The change of contact `b` of slot `i` handed on to its neighbour (R142). -/
def handOn (s : State) (p : PortId) (i b : Nat) (made : Bool) : State :=
  let e := slotAt (portAt s p) i
  match e.kind with
  | .keys => if made then keyMake s p e.division e.touch (e.first + b) else keyBreak s p e.division e.touch (e.first + b)
  | .tabs => tabEvent s p (e.first + b) made
  | .pistons => if made then pistonMake s p (e.first + b) else s
  | .unused => s
  | .expression => s

/-- The debounce count of a contact. -/
def debounceAt (c : ConsolePort) (i b : Nat) : Nat :=
  look c.debounce (16 * i + b) 0

/-- A port with one debounce count set. -/
def withDebounce (c : ConsolePort) (i b n : Nat) : ConsolePort :=
  { c with debounce := put c.debounce (16 * i + b) n }

/-- A port with one contact's accepted state set. -/
def withContact (c : ConsolePort) (i b : Nat) (made : Bool) : ConsolePort :=
  { c with image := put c.image i (withBit (imageAt c i) b made) }

/-- One contact of a valid frame in ONLINE: its count rises while raw differs from accepted and returns to 0 when they
agree; at its debounce the accepted state changes, and the change is handed on in the same step (R141, R142). -/
def takeContact (p : PortId) (data : List Word) (s : State) (x : Nat × Nat) : State :=
  let i := x.1
  let b := x.2
  let c := portAt s p
  if mapped c i b = false then s
  else
    let raw := (data.getD i 0).getLsbD b
    if raw = (imageAt c i).getLsbD b then setPort s p (withDebounce c i b 0)
    else if (slotAt c i).debounce ≤ debounceAt c i b + 1 then
      handOn (setPort s p (withContact (withDebounce c i b 0) i b raw)) p i b raw
    else setPort s p (withDebounce c i b (debounceAt c i b + 1))

/-- A watchdog reloaded by a valid frame. An expiry of it that waits in the queue fell together with the frame, which
is taken first, and does not take place (R138, R140; log 22). -/
def reloaded (c : ConsolePort) (expiryWaits : Bool) : ConsolePort :=
  { c with watchdog := some c.entry.watchdog, overtaken := c.overtaken || expiryWaits }

/-- A valid frame in ONLINE: watchdog reloaded, debounce and events in slot and contact order, then the expression
values (R138, R140, R141, R142). -/
def onlineFrame (s : State) (p : PortId) (data : List Word) : State :=
  let c := portAt s p
  let s1 := setPort s p (reloaded c (s.pending.contains (.watchdogExpiry p)))
  walk ((frameContacts c).foldl (takeContact p data) s1) p data

/-! ### Receiving a scan frame (R132, R133, R134) -/

/-- A valid frame counted and handed to the port state (R134). -/
def validFrame (s : State) (p : PortId) (data : List Word) : State :=
  let s1 := bump s (.validFrames p)
  match (portAt s p).state with
  | .off => s1
  | .seeking => goodFrame s1 p data
  | .lost => goodFrame s1 p data
  | .online => onlineFrame s1 p data

/-- A complete frame judged: valid when its check slot is the check value of its data slots (R134). -/
def judgeFrame (s : State) (p : PortId) (data : List Word) (check : Word) : State :=
  if check = checkWord data then validFrame s p data else invalidFrame (bump s (.checkFailures p)) p

/-- A return frame still in progress after the scan frame has taken `n` slots: its slots and its check slot are sent
alongside the first M + 1 of them (R143). -/
def returnAfter (c : ConsolePort) (n : Nat) : Option (List Word) :=
  if c.entry.returnSlots + 1 ≤ n then none else c.returnFrame

/-- Slots arrive at a receiving receiver that has taken `taken`: short of the check slot the frame stays in progress;
with it the frame is complete, the receiver waits and the frame is judged; slots after it are set aside (R132). -/
def receiveSlots (s : State) (p : PortId) (taken slots : List Word) : State :=
  let c := portAt s p
  let n := c.entry.dataSlots
  let all := taken ++ slots
  if all.length < n + 1 then
    setPort s p { c with receiver := .receiving all, returnFrame := returnAfter c all.length }
  else
    judgeFrame (setPort s p { c with receiver := .waiting, returnFrame := none }) p (all.take n) (all.getD n 0)

/-- A start mark at a slot boundary: taken by a waiting receiver, which begins a scan frame and a return frame (R132,
R143) and reckons its boundaries from here (R176); an early start mark at a receiving one, which is counted, abandons
both frames and counts as an invalid frame (R133); not taken while the port is OFF. A mark held until this boundary is
this one. -/
def markAtBoundary (s : State) (p : PortId) : State :=
  let c := portAt s p
  match c.receiver with
  | .idle => s
  | .waiting =>
    setPort s p { c with receiver := .receiving [], framing := .reckoned, returnFrame := some (returnFrameOf s p) }
  | .receiving _ =>
    invalidFrame
      (bump (setPort s p { c with receiver := .waiting, framing := .reckoned, returnFrame := none }) (.earlyStarts p)) p

/-- A start mark arrives `bit` bits after the last slot boundary. Inside a slot it is held until the next boundary; a
port that has taken none since it left OFF takes it at its own bit (R176). -/
def startMarkArrives (s : State) (p : PortId) (bit : Fin 16) : State :=
  let c := portAt s p
  if bit = 0 ∨ c.framing = .unset ∨ c.receiver = .idle then markAtBoundary s p
  else setPort s p { c with framing := .held }

/-- Slots arrive at a port with no start mark held: taken by a receiving receiver alone (R132; log 7). -/
def takeSlots (s : State) (p : PortId) (slots : List Word) : State :=
  match (portAt s p).receiver with
  | .idle => s
  | .waiting => s
  | .receiving taken => receiveSlots s p taken slots

/-- Slots arrive on the scan line. With a start mark held, the first of them is the slot it fell in, which ends at the
boundary where the mark is taken (R176). -/
def slotsArrive (s : State) (p : PortId) (slots : List Word) : State :=
  if (portAt s p).framing = .held then
    match slots with
    | [] => s
    | w :: rest =>
      takeSlots (markAtBoundary (takeSlots (setPort s p { portAt s p with framing := .reckoned }) p [w]) p) p rest
  else takeSlots s p slots

/-! ### The meanings -/

/-- START_MARK (R132, R176). -/
def execStartMark (mark : FramingMark) (s : State) : Host.Outcome State Fault Refusal :=
  .next (startMarkArrives s mark.port mark.bit)

/-- EARLY_START_MARK (R133, R176): the same event on the line, named by the receiver that it finds receiving (log 4). -/
def execEarlyStartMark (mark : FramingMark) (s : State) : Host.Outcome State Fault Refusal :=
  .next (startMarkArrives s mark.port mark.bit)

/-- SCAN_FRAME (R132, R134, R176). -/
def execScanFrame (p : PortId) (slots : List Word) (s : State) : Host.Outcome State Fault Refusal :=
  .next (slotsArrive s p slots)

/-- WATCHDOG_EXPIRY (R139): the watchdog runs in ONLINE alone. An expiry that a reloading frame was taken before does
not take place (R140). -/
def execWatchdogExpiry (p : PortId) (s : State) : Host.Outcome State Fault Refusal :=
  let c := portAt s p
  if c.overtaken then .next (setPort s p { c with overtaken := false })
  else if c.state = .online ∧ c.watchdog.isSome = true then .next (losePort s p)
  else .next s

/-- DRIVE_TIMER_EXPIRY (R107). -/
def execDriveTimerExpiry (p : PortId) (s : State) : Host.Outcome State Fault Refusal :=
  .next (driveExpiry s p)

end Sys2Proof.Machine
end

