-- ==== Sys2Proof/Machine/Chamber.lean ====
section
/-! DEFINITION. The chamber links (Chapter 9): the demanded outlets (R149), mute windows (R150) and output image, the
frame and its reply (R151 to R155), quiesce completion (R166), and the meanings of PERIOD_TIMER_EXPIRY,
KEEP_ALIVE_EXPIRY, ON_DEMAND_FRAME_START, FRAME_SENT and REPLY_PERIOD_CLOSE. -/

namespace Sys2Proof.Machine

/-! ### The demanded outlets (R149) -/

/-- The union of a list of sets. -/
def orAll {w : Nat} (xs : List (BitVec w)) : BitVec w :=
  xs.foldr (fun a b => a ||| b) 0

/-- The one outlet position as a set; empty beyond position 767. -/
def onePosition (pos : Nat) : LinkImage :=
  BitVec.twoPow 768 pos

/-- What one place of the sounding table demands on link `l`: its pipe's outlet while it is energized (R149). -/
def recordDemand (s : State) (l : Nat) : Option Record → LinkImage
  | none => 0
  | some r =>
    if energizedState r.state && (rankAt s r.rank).link == l then onePosition (pipePosition (rankAt s r.rank) r.pipe)
    else 0

/-- The damper a rank demands: the outlet of a STRIKE or REITERATE rank some record of which holds a claim (R62,
R149). -/
def damperDemand (s : State) (rank : Nat) : LinkImage :=
  match (rankAt s rank).damper with
  | none => 0
  | some (slot, bit) => if damperDemanded s rank then onePosition (position slot bit) else 0

/-- The tremulant outlet a rank demands while its standing output is on (R97, R149). -/
def tremulantDemand (s : State) (rank : Nat) : LinkImage :=
  if (rankAt s rank).kind == .tremulant && s.tremulants.getLsbD rank then onePosition (firstPosition (rankAt s rank))
  else 0

/-- The standing outputs of one rank on link `l`. -/
def rankDemand (s : State) (l rank : Nat) : LinkImage :=
  if (rankAt s rank).kind != .unused && (rankAt s rank).link == l then damperDemand s rank ||| tremulantDemand s rank
  else 0

/-- The shade outlets entry `e` demands on link `l`: in RUN, the first of its range up to its stage (R123, R149). -/
def shadeDemand (s : State) (l e : Nat) : LinkImage :=
  if s.mode == .run && (exprAt s e).target == .shade && (exprAt s e).link == l then
    orAll ((List.range (runAt s e).stage).map fun i =>
      onePosition (position (exprAt s e).outSlot (exprAt s e).outBit + i))
  else 0

/-- The outlets of link `l` that are demanded, by position (R149). -/
def demandedImage (s : State) (l : Nat) : LinkImage :=
  orAll (s.table.toList.map (recordDemand s l)) ||| orAll ((List.range 64).map (rankDemand s l))
    ||| orAll ((List.range 8).map (shadeDemand s l))

/-! ### The output image (R149, R150) -/

/-- A window matches an outlet number: it is enabled, and they agree wherever the mask bit is 0 (R150). -/
def windowMatches (w : MuteWindow) (n : Nat) : Bool :=
  w.enabled && (BitVec.ofNat 12 n ^^^ w.base) &&& ~~~ w.mask == 0

/-- Some enabled window matches an outlet (R150). -/
def muted (s : State) (n : Nat) : Bool :=
  s.mutes.toList.any fun w => windowMatches w n

/-- The positions a link's frames carry (R146). -/
def carried (s : State) (l : Nat) : Nat :=
  (linkAt s l).entry.slots * 16

/-- A position is held off: a mute window matches its outlet, or the fault set holds it (R149, R150). -/
def heldOff (s : State) (l pos : Nat) : Bool :=
  muted s (outlet l pos) || s.faults.contains (outlet l pos)

/-- The image of link `l` over its carried positions: demanded and not held off (R149). -/
def outputImage (s : State) (l : Nat) : LinkImage :=
  bitsOf 768 (fun pos => decide (pos < carried s l) && (demandedImage s l).getLsbD pos && !heldOff s l pos) 768

/-! ### Frames (R148, R151, R175) -/

/-- A link may begin a frame: it is UP or DOWN, free, and has not served the quiesce (R148, R151). -/
def canBegin (x : Link) : Bool :=
  x.state != .idle && x.flight == .free && !x.served

/-- The link as a frame beginning with an image leaves it: latched, sent last, its mode's timer started, and noted when
it is begun in QUIESCING with the table empty (R148, R151). -/
def begun (x : Link) (image : LinkImage) (serves : Bool) : Link :=
  { x with
    flight := .sending, latch := image, lastSent := image
    period := if x.entry.mode = .periodic then some x.entry.period else none
    keepAlive := if x.entry.mode = .onDemand then some x.entry.keepAlive else none
    startWaits := false, serving := serves }

/-- A frame begins on link `l` (R151). -/
def beginFrame (s : State) (l : Nat) : State :=
  setLink s l (begun (linkAt s l) (outputImage s l) (s.mode == .quiescing && tableEmpty s))

/-- The slots of the frame in flight on a link, from its latch (R151, R175). -/
def frameSlots (x : Link) : List Word :=
  (List.range x.entry.slots).map fun i => x.latch.extractLsb' (16 * i) 16

/-- The whole frame as the line carries it: its slots and their check slot (R175, R176). -/
def frameOnLine (x : Link) : List Word :=
  frameSlots x ++ [checkWord (frameSlots x)]

/-- The image of an ON_DEMAND link differs from the last image sent (R153). -/
def imageChanged (s : State) (l : Nat) : Bool :=
  outputImage s l != (linkAt s l).lastSent

/-! ### Replies and the fault set (R154, R155) -/

/-- A reply is good: enough words, the last of them the check value of the others (R154). -/
def replyGood (slots : Nat) (words : List Word) : Bool :=
  decide (slots + 1 ≤ words.length) && words.getD slots 0 == checkWord (words.take slots)

/-- A missed reply: counted, the miss count up to 15, and an UP link at its threshold entering DOWN (R154). -/
def missedReply (s : State) (l : Nat) : State :=
  let s1 := bump s (.repliesMissed l)
  let x := linkAt s1 l
  let miss := min 15 (x.miss + 1)
  if x.state = .up ∧ x.entry.downThreshold ≤ miss then
    raise (setLink s1 l { x with miss := miss, state := .down }) .linkDown (.number l)
  else setLink s1 l { x with miss := miss }

/-- A number put into an ascending list, at most once (R156). -/
def insertAscending (n : Nat) : List Nat → List Nat
  | [] => [n]
  | m :: t => if n < m then n :: m :: t else if n = m then m :: t else m :: insertAscending n t

/-- One outlet reported faulty: added with OUTLET_FAULT unless the set holds it (R155). -/
def addFault (s : State) (n : Nat) : State :=
  if s.faults.contains n then s
  else raise { s with faults := insertAscending n s.faults } .outletFault (.number n)

/-- The outlets of link `l` that the fault words of `slots` slots report, ascending (R155). -/
def reportedFaults (l slots : Nat) (words : List Word) : List Nat :=
  ((List.range (16 * slots)).filter fun pos => (words.getD (pos / 16) 0).getLsbD (pos % 16)).map (outlet l)

/-- A good reply: miss count 0, a DOWN link back UP, and its fault words taken (R154, R155). -/
def goodReply (s : State) (l : Nat) (words : List Word) : State :=
  let x := linkAt s l
  (reportedFaults l x.entry.slots words).foldl addFault
    (setLink s l { x with miss := 0, state := if x.state = .down then .up else x.state })

/-- The reply judged (R154). -/
def judgeReply (s : State) (l : Nat) (words : List Word) : State :=
  if replyGood (linkAt s l).entry.slots words then goodReply s l words else missedReply s l

/-- The link as the close of its operation leaves it: free; a frame noted for the quiesce has served it, and then no
timer of the link starts a further frame (R148, R151). -/
def closed (x : Link) : Link :=
  if x.serving then
    { x with flight := .free, serving := false, served := true, startWaits := false, period := none, keepAlive := none }
  else { x with flight := .free }

/-- At the close of a reply: a PERIODIC link's frame that waited for the close (R152), or an ON_DEMAND link's frame for
an image that still differs (R153), begins in the same step. -/
def frameAtClose (s : State) (l : Nat) : State :=
  let x := linkAt s l
  if canBegin x && ((x.entry.mode == .periodic && x.startWaits) || (x.entry.mode == .onDemand && imageChanged s l)) then
    beginFrame s l
  else s

/-! ### Quiesce completion (R166) -/

/-- An enabled link that has not served the quiesce (R166). -/
def unserved (s : State) (l : Nat) : Bool :=
  (linkAt s l).entry.enabled && !(linkAt s l).served

/-- Quiesce completion is reached: the table is empty and every enabled link has served (R166). -/
def quiesceDone (s : State) : Bool :=
  s.mode == .quiescing && tableEmpty s && !four.any (unserved s)

/-- Quiesce completion: CONFIG, every link IDLE with miss count 0, and QUIESCED raised (R166). -/
def completeQuiesce (s : State) : State :=
  raise { s with mode := .config, links := mapTable (fun x => Link.idle x.entry) s.links } .quiesced .none

/-- Quiesce completion where it is reached. -/
def settleMode (s : State) : State :=
  if quiesceDone s then completeQuiesce s else s

/-! ### The meanings -/

/-- PERIOD_TIMER_EXPIRY (R152): a frame begins; in flight, the start waits for the close of the reply. -/
def execPeriodTimerExpiry (link : Fin 4) (s : State) : Host.Outcome State Fault Refusal :=
  let l := link.val
  let x := linkAt s l
  if x.period.isSome = false then .next s
  else if canBegin x then .next (beginFrame s l)
  else if x.flight = .free then .next (setLink s l { x with period := none })
  else .next (setLink s l { x with period := none, startWaits := true })

/-- KEEP_ALIVE_EXPIRY (R153): a frame begins. The timer expires while the link is free (log 17). -/
def execKeepAliveExpiry (link : Fin 4) (s : State) : Host.Outcome State Fault Refusal :=
  let l := link.val
  let x := linkAt s l
  if x.keepAlive.isSome && canBegin x then .next (beginFrame s l) else .next s

/-- ON_DEMAND_FRAME_START (R153): a free link whose image differs from the last image sent begins a frame. -/
def execOnDemandFrameStart (link : Fin 4) (s : State) : Host.Outcome State Fault Refusal :=
  let l := link.val
  let x := linkAt s l
  if x.entry.mode == .onDemand && canBegin x && imageChanged s l then .next (beginFrame s l) else .next s

/-- FRAME_SENT (R151): the counter of frames sent rises and the reply period opens. -/
def execFrameSent (link : Fin 4) (s : State) : Host.Outcome State Fault Refusal :=
  let l := link.val
  if (linkAt s l).flight = .sending then
    .next (setLink (bump s (.framesSent l)) l { linkAt s l with flight := .reply })
  else .next s

/-- REPLY_PERIOD_CLOSE (R154): the reply is judged, the link is free, and then either the quiesce completes (R166) or a
frame that waited for the close begins (R152, R153). -/
def execReplyPeriodClose (link : Fin 4) (words : List Word) (s : State) : Host.Outcome State Fault Refusal :=
  let l := link.val
  if (linkAt s l).flight = .reply then
    let s1 := judgeReply s l words
    let s2 := setLink s1 l (closed (linkAt s1 l))
    .next (if quiesceDone s2 then completeQuiesce s2 else frameAtClose s2 l)
  else .next s

end Sys2Proof.Machine
end

