-- ==== Sys2Proof/Machine/Clock.lean ====
section
/-! DEFINITION. The relay's own time base (0.9 convention 1): which events are due, and a millisecond passing. A timer
holds whole milliseconds remaining and is due at 0. -/

namespace Sys2Proof.Machine

/-! ### Due events -/

/-- A timer has run out. -/
def ranOut (t : Option Nat) : Bool :=
  t == some 0

/-- One event, when it is due. -/
def dueIf (due : Bool) (c : Instr) : List Instr :=
  if due then [c] else []

/-- The events due at a console port: its watchdog (R139) and its drive timer (R107). -/
def duePort (s : State) (p : PortId) : List Instr :=
  dueIf ((portAt s p).state == .online && ranOut (portAt s p).watchdog) (.watchdogExpiry p)
    ++ dueIf (ranOut (portAt s p).recallSlot.timer) (.driveTimerExpiry p)

/-- The event a record's phase timer brings in its state (R31, R34, R38, R50). -/
def phaseEvent (i : Fin 448) : RecordState → List Instr
  | .waiting => [.waitTimerExpiry i]
  | .pulling => [.pullTimerExpiry i]
  | .striking => [.strikeTimerExpiry i]
  | .settling => [.settleTimerExpiry i]
  | _ => []

/-- A cycle expiry can be taken: in RESTING, or in STRIKING and not held already (R55). -/
def cycleDue (r : Record) : Bool :=
  r.kind == .reiterate && ranOut r.cycle
    && (r.state == .resting || (r.state == .striking && !r.cycleHeld))

/-- A protection expiry can be taken (R60). -/
def protectionDue (r : Record) : Bool :=
  (r.state == .pulling || r.state == .speaking) && ranOut r.protection

/-- The events due at one record. -/
def dueRecord (i : Fin 448) (r : Record) : List Instr :=
  (if ranOut r.phase then phaseEvent i r.state else [])
    ++ dueIf (cycleDue r) (.cycleTimerExpiry i) ++ dueIf (protectionDue r) (.protectionTimerExpiry i)

/-- The events due in the places from `i` on of a list of places. -/
def duePlaces : Nat → List (Option Record) → List Instr
  | _, [] => []
  | i, none :: t => duePlaces (i + 1) t
  | i, some r :: t => (if h : i < 448 then dueRecord ⟨i, h⟩ r else []) ++ duePlaces (i + 1) t

/-- The events due at a chamber link: its period timer (R152), its keep-alive timer and a changed image of an ON_DEMAND
link, the last two while it is free (R153). -/
def dueLink (s : State) (l : Fin 4) : List Instr :=
  let x := linkAt s l.val
  dueIf (ranOut x.period) (.periodTimerExpiry l) ++ dueIf (ranOut x.keepAlive && canBegin x) (.keepAliveExpiry l)
    ++ dueIf (x.entry.mode == .onDemand && canBegin x && imageChanged s l.val) (.onDemandFrameStart l)

/-- The events that are due (4.10.3, R77). -/
def dueEvents (s : State) : List Instr :=
  duePort s .A ++ duePort s .B ++ duePlaces 0 s.table.toList
    ++ dueLink s 0 ++ dueLink s 1 ++ dueLink s 2 ++ dueLink s 3

/-! ### A millisecond -/

/-- A timer one millisecond on. -/
def tick : Option Nat → Option Nat
  | none => none
  | some n => some (n - 1)

/-- A record's timers one millisecond on. -/
def tickRecord (r : Record) : Record :=
  { r with phase := tick r.phase, cycle := tick r.cycle, protection := tick r.protection }

/-- A console port's timers one millisecond on. -/
def tickPort (c : ConsolePort) : ConsolePort :=
  { c with watchdog := tick c.watchdog, recallSlot := { c.recallSlot with timer := tick c.recallSlot.timer } }

/-- A chamber link's timers one millisecond on. -/
def tickLink (x : Link) : Link :=
  { x with period := tick x.period, keepAlive := tick x.keepAlive }

/-- One millisecond passes: every running timer of the relay counts it (log 1). -/
def passMillisecond (s : State) : State :=
  { s with
    table := mapTable (Option.map tickRecord) s.table
    portA := tickPort s.portA, portB := tickPort s.portB
    links := mapTable tickLink s.links }

end Sys2Proof.Machine
end

