-- ==== Sys2Proof/Machine/Service.lean ====
section
/-! DEFINITION. The service port's transactions (R159 to R163, R168, R177): how a request is judged, refused, discarded and
answered, what a fetch clocks out, and the meanings of VOID_TRANSACTION, REQUEST_CHECK_FAILED, UNKNOWN_REQUEST,
REQUEST_DISCARDED and FETCH. -/

namespace Sys2Proof.Machine

/-! ### Answers (R159, R162) -/

/-- A request answered OK with a payload. -/
def okWith (payload : List Byte) : Response :=
  { status := .ok, payload := payload }

/-- A request answered with a status and an empty payload. -/
def withStatus (st : Status) : Response :=
  { status := st, payload := [] }

/-- What a request's work comes to when a check of its own fails: nothing is changed (R162). -/
def refuse (s : State) (st : Status) : State × Response :=
  (s, withStatus st)

/-- The state in which the port holds a response: RESPONSE READY rises (R159). -/
def respond (x : State × Response) : State :=
  { x.1 with response := some x.2 }

/-- A discarded request: the tally and the global counter rise (R161). Data-out carries the idle fill (R177). -/
def discardRequest (s : State) : State :=
  bump { s with discardTally := min 255 (s.discardTally + 1), dataOut := [] } .discardedRequests

/-- Data-out carries the idle fill throughout a transaction (R177). -/
def idleFill (s : State) : State :=
  { s with dataOut := [] }

/-! ### Modes (R163) -/

/-- Taken in every mode. -/
def takenAlways : Mode → Bool
  | _ => true

/-- Taken in CONFIG and in RUN. -/
def takenPlaying : Mode → Bool
  | .quiescing => false
  | _ => true

/-- Taken in CONFIG alone. -/
def takenInConfig : Mode → Bool
  | .config => true
  | _ => false

/-- Taken in RUN alone. -/
def takenInRun : Mode → Bool
  | .run => true
  | _ => false

/-! ### Judging a good request (R161, R162, R163) -/

/-- What a transaction does, unless the RESET line is asserted: the port then takes none, neither judging nor counting
it, and data-out carries the idle fill (R168). -/
def takesTransaction (work : State → State) (s : State) : State :=
  if s.resetLine = .asserted then idleFill s else work s

/-- A request transaction: discarded while another is outstanding (R161), and otherwise judged. -/
def arrives (judge : State → State) : State → State :=
  takesTransaction fun s => if s.response.isSome then discardRequest s else judge (idleFill s)

/-- A good request whose code is known: discarded while a response is outstanding (R161), else refused with MODE, then
with RANGE for its length, and else worked, which makes its own checks (R162). -/
def request (taken : Mode → Bool) (length : Nat) (params : List Byte) (work : State → State × Response) (s : State) :
    State :=
  arrives (fun s =>
    if taken s.mode = false then respond (refuse s .mode)
    else if params.length ≠ length then respond (refuse s .range)
    else respond (work s)) s

/-! ### Fetches (R160, R177) -/

/-- A response and the discard tally as the port holds them, as the bytes a fetch clocks out (R160). -/
def responseBody (tally : Nat) (r : Response) : List Byte :=
  [byte (statusCode r.status), byte tally] ++ bytes2 r.payload.length ++ r.payload

/-- The response with its check byte (R160, R177). -/
def responseBytes (tally : Nat) (r : Response) : List Byte :=
  responseBody tally r ++ [checkByte (responseBody tally r)]

/-- The response consumed: RESPONSE READY falls and the tally is 0 (R160). -/
def consumed (s : State) : State :=
  { s with response := none, discardTally := 0 }

/-- A fetch that clocks `clocked` bytes after its opening byte (R160). -/
def fetchResponse (clocked : Nat) (s : State) : State :=
  match s.response with
  | none => idleFill s
  | some r =>
    let bytes := responseBytes s.discardTally r
    let s1 := { s with dataOut := bytes.take clocked }
    if bytes.length ≤ clocked then consumed s1 else s1

/-! ### Codes that no other command takes (R162, R179) -/

/-- The status of a good request whose code or parameters no other command takes. A TABLE_WRITE of no table and a
READ_STATUS of no item are RANGE; a CLEAR_FAULT of no form is refused with MODE in QUIESCING and with RANGE otherwise
(R162, R179; log 13); every other such code is UNKNOWN (R162). -/
def unknownStatus (m : Mode) (code : Byte) : Status :=
  if code = 0x11#8 ∨ code = 0x50#8 then .range
  else if code = 0x81#8 then (if takenPlaying m then .range else .mode)
  else .unknown

/-! ### The meanings -/

/-- VOID_TRANSACTION (R177): ignored, the idle fill clocked out throughout. -/
def execVoidTransaction (_bytes : List Byte) (s : State) : Host.Outcome State Fault Refusal :=
  .next (idleFill s)

/-- REQUEST_CHECK_FAILED (R159): answered CHECK, or discarded while a response is outstanding (R161). -/
def execRequestCheckFailed (_bytes : List Byte) (s : State) : Host.Outcome State Fault Refusal :=
  .next (arrives (fun s => respond (refuse s .check)) s)

/-- UNKNOWN_REQUEST (R162), or discarded while a response is outstanding (R161). -/
def execUnknownRequest (code : Byte) (_params : List Byte) (s : State) : Host.Outcome State Fault Refusal :=
  .next (arrives (fun s => respond (refuse s (unknownStatus s.mode code))) s)

/-- REQUEST_DISCARDED (R161): without an outstanding request nothing is discarded (log 4). -/
def execRequestDiscarded (s : State) : Host.Outcome State Fault Refusal :=
  .next (takesTransaction (fun s => if s.response.isSome then discardRequest s else s) s)

/-- FETCH (R160). -/
def execFetch (clocked : Nat) (s : State) : Host.Outcome State Fault Refusal :=
  .next (takesTransaction (fetchResponse clocked) s)

end Sys2Proof.Machine
end

