-- ==== Sys2Proof/Machine/Tables.lean ====
section
/-! DEFINITION. TABLE_READ and the twelve TABLE_WRITE requests: each table's own checks in the order of its rule, what
is stored, and what a write in RUN brings about (R4 to R11, R67, R82, R112, R116, R117, R125, R128, R130, R131, R147,
R150). A write's parameters are the bytes after the table code: the index bytes and the entry (R178). -/

namespace Sys2Proof.Machine

/-! ### TABLE_READ (R178) -/

/-- The entry bytes when the index is in the table; RANGE otherwise. -/
def entryAnswer (inTable : Bool) (entry : List Byte) : Response :=
  if inTable then okWith entry else withStatus .range

/-- The answer for a port's table: the entry when the port byte names a port and the position is in the table. -/
def portAnswer (s : State) (code : Nat) (inTable : Bool) (entry : ConsolePort → List Byte) : Response :=
  match portOfCode code with
  | none => withStatus .range
  | some p => entryAnswer inTable (entry (portAt s p))

/-- The index bytes a table's entry is named by (R178). -/
def indexLength (table : Nat) : Nat :=
  if table = 2 ∨ table = 3 ∨ table = 8 then 2 else 1

/-- The answer of TABLE_READ of a table and its index bytes, `i` the first of them and `j` the second (R6, R9, R67,
R82, R112, R116, R125, R128, R130, R131, R147, R150). -/
def readEntry (s : State) (table i j : Nat) : Response :=
  match table with
  | 0 => entryAnswer (within 0 63 i) (rankEntryBytes (rankAt s i))
  | 1 => entryAnswer (within 0 255 i) (stopEntryBytes (stopAt s i))
  | 2 => portAnswer s i (within 0 63 j) fun c => slotEntryBytes (slotAt c j)
  | 3 => portAnswer s i (within 0 31 j) fun c => returnEntryBytes (returnAt c j)
  | 4 => portAnswer s i true fun c => portEntryBytes c.entry
  | 5 => entryAnswer (within 0 3 i) (linkEntryBytes (linkAt s i).entry)
  | 6 => entryAnswer (within 0 3 i) (railEntryBytes (railAt s i).entry)
  | 7 => entryAnswer (within 0 5 i) [byte (holderCode (granting s i))]
  | 8 => entryAnswer (within 0 15 i && within 0 39 j) (stopSetBytes (combinationAt s i j))
  | 9 => entryAnswer (within 1 15 i) (stopSetBytes (crescendoAt s i))
  | 10 => entryAnswer (within 0 7 i) (exprEntryBytes (exprAt s i))
  | 11 => entryAnswer (within 0 7 i) (muteEntryBytes (look s.mutes i { base := 0, mask := 0, enabled := false }))
  | _ => withStatus .range

/-- The work of TABLE_READ; a length that is not that of its table is RANGE (R162, R179). -/
def tableReadWork (params : List Byte) (s : State) : State × Response :=
  if params.length ≠ 1 + indexLength (byteAt params 0) then refuse s .range
  else (s, readEntry s (byteAt params 0) (byteAt params 1) (byteAt params 2))

/-- TABLE_READ (R6, R163): answered in every mode. -/
def execTableRead (params : List Byte) (s : State) : Host.Outcome State Fault Refusal :=
  .next (request takenAlways params.length params (tableReadWork params) s)

/-! ### RANK (R4, R5, R6) -/

/-- The positions, as runs, that every rank of link `l` but number `r` occupies (R4). -/
def otherRankRuns (s : State) (l r : Nat) : List (Nat × Nat) :=
  ((List.range 64).filter fun q => q != r && (rankAt s q).kind != .unused && (rankAt s q).link == l).flatMap fun q =>
    pipeRun (rankAt s q) ++ damperRun (rankAt s q)

/-- The shade ranges on link `l` of every expression entry that passes a test of its number (R4, R116). -/
def shadeRuns (s : State) (l : Nat) (f : Nat → Bool) : List (Nat × Nat) :=
  ((List.range 8).filter fun e => f e && (exprAt s e).link == l).flatMap fun e => shadeRun (exprAt s e)

/-- Check 3 of R4: a position of the entry is occupied already. -/
def rankOverlaps (s : State) (r : Nat) (e : RankEntry) : Bool :=
  anyMeet (pipeRun e ++ damperRun e) (otherRankRuns s e.link r ++ shadeRuns s e.link fun _ => true)
    || anyMeet (damperRun e) (pipeRun e)

/-- A rank is in use: some record of it is, or an effective TREMULANT stop names it and the stored entry or the new one
is TREMULANT (R5). -/
def rankInUse (s : State) (r : Nat) (e : RankEntry) : Bool :=
  (s.table.toList.any fun
    | none => false
    | some x => x.rank == r)
    || (((rankAt s r).kind == .tremulant || e.kind == .tremulant) && tremulantNamed s r)

/-- Checks 2 to 7 of a rank entry that passed check 1, in order: the status of the first that fails (R4, R5). -/
def rankFault (s : State) (r : Nat) (e : RankEntry) : Option Status :=
  if e.kind ≠ .unused ∧ 768 < firstPosition e + e.count then some .range
  else if rankOverlaps s r e then some .overlap
  else if usesHold e.kind = true ∧ e.pull < e.hold then some .range
  else if e.kind = .reiterate ∧ e.period < e.strikeTime + e.minOff then some .range
  else if s.mode = .run ∧ usesNotes e.kind = true ∧ (railAt s e.rail).entry.capacity < e.pull then some .range
  else if s.mode = .run ∧ rankInUse s r e = true then some .inUse
  else none

/-- A rank entry stored; its tremulant output then follows its rule (R5, R97). -/
def storeRank (s : State) (r : Nat) (e : RankEntry) : State :=
  let s1 := { s with ranks := put s.ranks r e }
  if s.mode = .run then retakeTremulant s1 r else s1

/-- The work of TABLE_WRITE of RANK: rank, entry (R4, R5). -/
def writeRankWork (params : List Byte) (s : State) : State × Response :=
  let r := byteAt params 0
  if 63 < r then refuse s .range
  else
    match readRankEntry params 1 with
    | none => refuse s .range
    | some e =>
      match rankFault s r e with
      | some st => refuse s st
      | none => (storeRank s r e, okWith [])

/-- TABLE_WRITE of RANK (R4, R5, R6). -/
def execTableWriteRank (params : List Byte) (s : State) : Host.Outcome State Fault Refusal :=
  .next (request takenPlaying 18 params (writeRankWork params) s)

/-! ### STOP (R8 to R11) -/

/-- A stop retired as it stood: its drawn state off, its drives cancelled at both ports, its claims released, and the
rank it named as TREMULANT retaken without it (R10). The stop stands UNUSED until its new entry is stored. -/
def retireStop (s : State) (n : Nat) : State :=
  let e := stopAt s n
  let s1 := setDrawn s (withBit s.drawn n false)
  let s2 := undrive (undrive s1 .A (BitVec.twoPow 256 n)) .B (BitVec.twoPow 256 n)
  let s3 := setStop (releaseRequest s2 (.stop n)) n StopEntry.unset
  if e.kind = .tremulant then retakeTremulant s3 e.rank else s3

/-- A stop rewritten in RUN: retired, stored, and brought into play where it is effective under its new entry (R10,
R11). -/
def rewriteStop (s : State) (n : Nat) (e : StopEntry) : State :=
  let s1 := setStop (retireStop s n) n e
  if effective s1 n then comeOn true s1 n else s1

/-- The work of TABLE_WRITE of STOP: stop, entry (R8, R10, R11). Every stop byte names a stop. -/
def writeStopWork (params : List Byte) (s : State) : State × Response :=
  match readStopEntry params 1 with
  | none => refuse s .range
  | some e =>
    (if s.mode = .run then rewriteStop s (byteAt params 0) e else setStop s (byteAt params 0) e, okWith [])

/-- TABLE_WRITE of STOP (R8, R9, R10). -/
def execTableWriteStop (params : List Byte) (s : State) : Host.Outcome State Fault Refusal :=
  .next (request takenPlaying 10 params (writeStopWork params) s)

/-! ### SLOT_MAP, RETURN_MAP, PORT (R128, R130, R131) -/

/-- The work of TABLE_WRITE of SLOT_MAP: port, position, entry (R130). -/
def writeSlotMapWork (params : List Byte) (s : State) : State × Response :=
  match portOfCode (byteAt params 0), readSlotEntry params 2 with
  | some p, some e =>
    if 63 < byteAt params 1 then refuse s .range
    else
      (setPort s p { portAt s p with slotMap := put (portAt s p).slotMap (byteAt params 1) e }, okWith [])
  | _, _ => refuse s .range

/-- TABLE_WRITE of SLOT_MAP (R130). -/
def execTableWriteSlotMap (params : List Byte) (s : State) : Host.Outcome State Fault Refusal :=
  .next (request takenInConfig 7 params (writeSlotMapWork params) s)

/-- The work of TABLE_WRITE of RETURN_MAP: port, position, entry (R131). -/
def writeReturnMapWork (params : List Byte) (s : State) : State × Response :=
  match portOfCode (byteAt params 0), readReturnEntry params 2 with
  | some p, some e =>
    if 31 < byteAt params 1 then refuse s .range
    else
      (setPort s p { portAt s p with returnMap := put (portAt s p).returnMap (byteAt params 1) e }, okWith [])
  | _, _ => refuse s .range

/-- TABLE_WRITE of RETURN_MAP (R131). -/
def execTableWriteReturnMap (params : List Byte) (s : State) : Host.Outcome State Fault Refusal :=
  .next (request takenInConfig 4 params (writeReturnMapWork params) s)

/-- The work of TABLE_WRITE of PORT: port, entry (R128). -/
def writePortWork (params : List Byte) (s : State) : State × Response :=
  match portOfCode (byteAt params 0), readPortEntry params 1 with
  | some p, some e => (setPort s p { portAt s p with entry := e }, okWith [])
  | _, _ => refuse s .range

/-- TABLE_WRITE of PORT (R128). -/
def execTableWritePort (params : List Byte) (s : State) : Host.Outcome State Fault Refusal :=
  .next (request takenInConfig 8 params (writePortWork params) s)

/-! ### LINK, RAIL, MUTE (R67, R147, R150) -/

/-- The work of TABLE_WRITE of LINK: link, entry (R147). -/
def writeLinkWork (params : List Byte) (s : State) : State × Response :=
  let l := byteAt params 0
  match readLinkEntry params 1 with
  | none => refuse s .range
  | some e => if 3 < l then refuse s .range else (setLink s l { linkAt s l with entry := e }, okWith [])

/-- TABLE_WRITE of LINK (R147). -/
def execTableWriteLink (params : List Byte) (s : State) : Host.Outcome State Fault Refusal :=
  .next (request takenInConfig 9 params (writeLinkWork params) s)

/-- The work of TABLE_WRITE of RAIL: rail, entry (R67). -/
def writeRailWork (params : List Byte) (s : State) : State × Response :=
  let k := byteAt params 0
  match readRailEntry params 1 with
  | none => refuse s .range
  | some e => if 3 < k then refuse s .range else (setRail s k { railAt s k with entry := e }, okWith [])

/-- TABLE_WRITE of RAIL (R67). -/
def execTableWriteRail (params : List Byte) (s : State) : Host.Outcome State Fault Refusal :=
  .next (request takenInConfig 8 params (writeRailWork params) s)

/-- The work of TABLE_WRITE of MUTE: window, entry (R150). -/
def writeMuteWork (params : List Byte) (s : State) : State × Response :=
  let n := byteAt params 0
  match readMuteEntry params 1 with
  | none => refuse s .range
  | some w => if 7 < n then refuse s .range else ({ s with mutes := put s.mutes n w }, okWith [])

/-- TABLE_WRITE of MUTE (R150). -/
def execTableWriteMute (params : List Byte) (s : State) : Host.Outcome State Fault Refusal :=
  .next (request takenPlaying 6 params (writeMuteWork params) s)

/-! ### GRANT (R82, R93) -/

/-- A holder byte: NONE 0, A 1, B 2; any other names none (R82, R178). -/
def holderOfCode : Nat → Option (Option PortId)
  | 0 => some none
  | n => (portOfCode n).map some

/-- A holder stored; in RUN a change of holder is a grant change (R82, R93). -/
def storeGrant (s : State) (d : Nat) (q : Option PortId) : State :=
  if s.mode = .run then (if granting s d = q then s else grantChange s d q)
  else { s with grants := put s.grants d q }

/-- The work of TABLE_WRITE of GRANT: division, holder (R82). -/
def writeGrantWork (params : List Byte) (s : State) : State × Response :=
  let d := byteAt params 0
  match holderOfCode (byteAt params 1) with
  | none => refuse s .range
  | some q => if 5 < d then refuse s .range else (storeGrant s d q, okWith [])

/-- TABLE_WRITE of GRANT (R82). -/
def execTableWriteGrant (params : List Byte) (s : State) : Host.Outcome State Fault Refusal :=
  .next (request takenPlaying 2 params (writeGrantWork params) s)

/-! ### COMBINATION and CRESCENDO (R112, R125) -/

/-- The stops a record may hold: neither UNUSED nor of division 5 (R112, R125). -/
def storable (s : State) : StopSet :=
  bitsOf 256 (fun n => (stopAt s n).kind != .unused && (stopAt s n).division != 5) 256

/-- The work of TABLE_WRITE of COMBINATION: level, code, stop set. A divisional record keeps the stops of its own
division (R112). -/
def writeCombinationWork (params : List Byte) (s : State) : State × Response :=
  let level := byteAt params 0
  let code := byteAt params 1
  if 15 < level ∨ 39 < code then refuse s .range
  else
    let scope := if code ≤ 9 then storable s else storable s &&& stopsOf s ((code - 10) / 6)
    (setCombination s level code (stopSetAt params 2 &&& scope), okWith [])

/-- TABLE_WRITE of COMBINATION (R112). -/
def execTableWriteCombination (params : List Byte) (s : State) : Host.Outcome State Fault Refusal :=
  .next (request takenPlaying 34 params (writeCombinationWork params) s)

/-- The state with crescendo stage record `n` replaced (R125). -/
def setCrescendo (s : State) (n : Nat) (x : StopSet) : State :=
  { s with crescendo := put s.crescendo (n - 1) x }

/-- A stage record stored; in RUN, when it is that of the current stage, it is one change of the effective set
(R125). -/
def storeCrescendo (s : State) (n : Nat) (x : StopSet) : State :=
  if s.mode = .run ∧ crescendoStage s = n then changeEffective true (effectiveSet s) (setCrescendo s n x)
  else setCrescendo s n x

/-- The work of TABLE_WRITE of CRESCENDO: record, stop set (R125). -/
def writeCrescendoWork (params : List Byte) (s : State) : State × Response :=
  let n := byteAt params 0
  if n = 0 ∨ 15 < n then refuse s .range
  else (storeCrescendo s n (stopSetAt params 1 &&& storable s), okWith [])

/-- TABLE_WRITE of CRESCENDO (R125). -/
def execTableWriteCrescendo (params : List Byte) (s : State) : Host.Outcome State Fault Refusal :=
  .next (request takenPlaying 33 params (writeCrescendoWork params) s)

/-! ### EXPRESSION (R116, R117) -/

/-- An enabled entry's source slot is mapped EXPRESSION in its port's slot map (R116). -/
def sourceMapped (s : State) (e : ExprEntry) : Bool :=
  match e.port with
  | none => false
  | some p => (slotAt (portAt s p) e.slot).kind == .expression

/-- The rest of check 1 and checks 2 and 3 of R116 for entry `n`, whose fields are in range: the status of the first
that fails. -/
def exprFault (s : State) (n : Nat) (e : ExprEntry) : Option Status :=
  if e.target = .shade ∧ 768 < position e.outSlot e.outBit + e.stages then some .range
  else if e.enabled = true ∧ sourceMapped s e = false then some .range
  else if anyMeet (shadeRun e) (otherRankRuns s e.link 64 ++ shadeRuns s e.link fun q => q != n) then some .overlap
  else if isCrescendoEntry e = true ∧ ((List.range 8).any fun q => q != n && isCrescendoEntry (exprAt s q)) = true then
    some .inUse
  else none

/-- Step 1 of R117 in RUN: the old target is driven to stage 0. -/
def driveToZero (s : State) (n : Nat) : State :=
  if s.mode = .run ∧ (runAt s n).stage ≠ 0 then setStage s n 0 else s

/-- An entry stored with its run state cleared (R117 steps 1 and 2, R118). -/
def storeExpr (s : State) (n : Nat) (e : ExprEntry) : State :=
  let s1 := driveToZero s n
  setRun { s1 with expression := put s1.expression n e } n ExprRun.clear

/-- The work of TABLE_WRITE of EXPRESSION: entry number, entry (R116, R117). -/
def writeExpressionWork (params : List Byte) (s : State) : State × Response :=
  let n := byteAt params 0
  if 7 < n then refuse s .range
  else
    match readExprEntry params 1 with
    | none => refuse s .range
    | some e =>
      match exprFault s n e with
      | some st => refuse s st
      | none => (storeExpr s n e, okWith [])

/-- TABLE_WRITE of EXPRESSION (R116, R117). -/
def execTableWriteExpression (params : List Byte) (s : State) : Host.Outcome State Fault Refusal :=
  .next (request takenPlaying 18 params (writeExpressionWork params) s)

end Sys2Proof.Machine
end

