-- ==== Sys2Proof/Machine/Control.lean ====
section
/-! DEFINITION. The changes of mode (R164 to R168): the meanings of POWER_ON_RESET, START, STOP and RESTART. -/

namespace Sys2Proof.Machine

/-! ### START (R164) -/

/-- A rail whose entry is unset offends (R66, R164). -/
def railOffends (s : State) (k : Nat) : Bool :=
  (railAt s k).entry == Rail.unset.entry

/-- A rank with records whose pull units exceed its rail's capacity offends (R164). -/
def rankOffends (s : State) (r : Nat) : Bool :=
  let e := rankAt s r
  usesNotes e.kind && decide ((railAt s e.rail).entry.capacity < e.pull)

/-- The bits a link sends in one millisecond, by its rate code (R146, R178). -/
def bitsPerMs (rate : Nat) : Nat :=
  if rate = 0 then 250 else if rate = 1 then 500 else 1000

/-- The operation time of a link in bit periods (R146). -/
def operationBits (e : LinkEntry) : Nat :=
  2 * (e.slots + 1) * 16

/-- An enabled PERIODIC link whose period is shorter than its operation time offends (R146, R164). -/
def linkOffends (s : State) (l : Nat) : Bool :=
  let e := (linkAt s l).entry
  e.enabled && e.mode == .periodic && decide (e.period * bitsPerMs e.rate < operationBits e)

/-- The first offence of a configuration, as its table code and index: rails, ranks, then links, ascending (R164). -/
def firstOffence (s : State) : Option (Nat × Nat) :=
  match four.find? (railOffends s) with
  | some k => some (6, k)
  | none =>
    match (List.range 64).find? (rankOffends s) with
    | some r => some (0, r)
    | none =>
      match four.find? (linkOffends s) with
      | some l => some (5, l)
      | none => none

/-- An enabled link goes from IDLE to UP with its miss count at 0 and begins its first frame (R148, R164). -/
def startLink (s : State) (l : Nat) : State :=
  if (linkAt s l).entry.enabled then beginFrame (setLink s l { Link.idle (linkAt s l).entry with state := .up }) l else s

/-- The relay put in RUN: drawn set off, run states cleared, ports SEEKING, links UP (R99, R118, R135, R148, R164). -/
def startRun (s : State) : State :=
  four.foldl startLink
    { s with
      mode := .run, drawn := 0, tremulants := 0, runs := Vector.replicate 8 ExprRun.clear
      portA := portStarted s.portA, portB := portStarted s.portB }

/-- The work of START: CONFIG_ERROR naming the first offence, or RUN (R164). -/
def startWork (s : State) : State × Response :=
  match firstOffence s with
  | some x => (s, { status := .configError, payload := [byte x.1, byte x.2] })
  | none => (startRun s, okWith [])

/-- START (R163, R164). -/
def execStart (params : List Byte) (s : State) : Host.Outcome State Fault Refusal :=
  .next (request takenInConfig 0 params startWork s)

/-! ### STOP (R165) -/

/-- Steps 1 to 5 of STOP: QUIESCING, ports OFF, recall slots cancelled, every claim released, standing outputs off; the
shades follow the mode (R165, R123). -/
def stopRun (s : State) : State :=
  let s1 := { s with mode := .quiescing, portA := portOff s.portA, portB := portOff s.portB }
  let s3 := idleRecall (idleRecall s1 .A) .B
  { releaseRequest s3 .all with tremulants := 0 }

/-- STOP (R163, R165). With the table empty and no link enabled the quiesce completes in the same step (R166). -/
def execStop (params : List Byte) (s : State) : Host.Outcome State Fault Refusal :=
  .next (request takenInRun 0 params (fun s => (settleMode (stopRun s), okWith [])) s)

/-! ### RESTART and power-on reset (R167, R168) -/

/-- A console port after RESTART: its entry and maps kept, all else as after power-on (R127, R130, R131, R135, R102,
R108). -/
def portRestarted (c : ConsolePort) : ConsolePort :=
  { ConsolePort.reset with entry := c.entry, slotMap := c.slotMap, returnMap := c.returnMap }

/-- The relay after RESTART: the tables R167 names kept, everything else at its reset value. -/
def restarted (s : State) : State :=
  { State.reset with
    ranks := s.ranks, stops := s.stops, grants := s.grants, combination := s.combination
    expression := s.expression, crescendo := s.crescendo
    rails := mapTable (fun r => { Rail.unset with entry := r.entry }) s.rails
    portA := portRestarted s.portA, portB := portRestarted s.portB
    links := mapTable (fun x => Link.idle x.entry) s.links
    mutes := s.mutes, enabledCauses := s.enabledCauses, pending := s.pending, choices := s.choices }

/-- RESTART (R163, R167): its response is made after the reset. -/
def execRestart (params : List Byte) (s : State) : Host.Outcome State Fault Refusal :=
  .next (request takenAlways 0 params (fun s => (restarted s, okWith [])) s)

/-- POWER_ON_RESET (R168): every table and state at its power-on value, and the line at its new level. The queue and
the model's own count stand (log 16). While the line is asserted the ports are OFF, the links IDLE and no timer runs,
and the service port takes no transaction (`takesTransaction`). -/
def execPowerOnReset (s : State) (line : ResetLine := .released) : Host.Outcome State Fault Refusal :=
  .next { State.reset with resetLine := line, pending := s.pending, choices := s.choices }

end Sys2Proof.Machine
end

