-- ==== Sys2Proof/Machine/Requests.lean ====
section
/-! DEFINITION. The requests that play, read and report: ALL_CLEAR, RECALL, SET_LEVEL, LOOKUP, NEXT_RECORD, SILENCE, the
six items of READ_STATUS, attention, counters, the dirty list and the fault set (R41 to R44, R78, R98, R110, R111, R114,
R126, R145, R156 to R158, R166, R170 to R173, R180). -/

namespace Sys2Proof.Machine

/-! ### Records (R41 to R44) -/

/-- The work of ALL_CLEAR: every claim removed, and their number (R44, R180). -/
def allClearWork (s : State) : State × Response :=
  (releaseRequest s .all, okWith (bytes2 (claimsRemoved s .all)))

/-- ALL_CLEAR (R44). -/
def execAllClear (params : List Byte) (s : State) : Host.Outcome State Fault Refusal :=
  .next (request takenInRun 0 params allClearWork s)

/-- The record a rank byte and a pipe byte name: RANGE, NOT_FOUND, or its index and itself (R41, R43). -/
def namedRecord (s : State) (rank pipe : Nat) : Except Status (Nat × Record) :=
  if 63 < rank ∨ 96 < pipe then .error .range
  else
    match findRecord s rank pipe with
    | none => .error .notFound
    | some i =>
      match recordAt s i with
      | none => .error .notFound
      | some r => .ok (i, r)

/-- The work of LOOKUP: rank, pipe (R41). -/
def lookupWork (params : List Byte) (s : State) : State × Response :=
  match namedRecord s (byteAt params 0) (byteAt params 1) with
  | .error st => refuse s st
  | .ok x => (s, okWith (recordBytes x.1 x.2))

/-- LOOKUP (R41). -/
def execLookup (params : List Byte) (s : State) : Host.Outcome State Fault Refusal :=
  .next (request takenAlways 2 params (lookupWork params) s)

/-- The work of NEXT_RECORD: the first record in use at or above the index (R42). -/
def nextRecordWork (params : List Byte) (s : State) : State × Response :=
  if 447 < wordAt params 0 then refuse s .range
  else
    match (occupied s).find? fun i => decide (wordAt params 0 ≤ i) with
    | none => refuse s .notFound
    | some i =>
      match recordAt s i with
      | none => refuse s .notFound
      | some r => (s, okWith (recordBytes i r))

/-- NEXT_RECORD (R42). -/
def execNextRecord (params : List Byte) (s : State) : Host.Outcome State Fault Refusal :=
  .next (request takenAlways 2 params (nextRecordWork params) s)

/-- The work of SILENCE: every claim of the record removed, its index and their number answered (R43, R180). -/
def silenceWork (params : List Byte) (s : State) : State × Response :=
  match namedRecord s (byteAt params 0) (byteAt params 1) with
  | .error st => refuse s st
  | .ok x => (releaseRequest s (.record x.1), okWith (bytes2 x.1 ++ [byte x.2.claims.length]))

/-- SILENCE (R43). -/
def execSilence (params : List Byte) (s : State) : Host.Outcome State Fault Refusal :=
  .next (request takenInRun 2 params (silenceWork params) s)

/-! ### Pistons by the host (R110, R111) -/

/-- The enabled port a byte names, if any (R110, R111). -/
def enabledPort (s : State) (code : Nat) : Option PortId :=
  match portOfCode code with
  | none => none
  | some p => if (portAt s p).entry.enabled then some p else none

/-- The work of RECALL: port, piston code (R110). -/
def recallWork (params : List Byte) (s : State) : State × Response :=
  match enabledPort s (byteAt params 0) with
  | none => refuse s .range
  | some p =>
    if 63 < byteAt params 1 then refuse s .range
    else
      let x := pistonAction s p (byteAt params 1)
      (x.1, okWith [byte (outcomeCode x.2)])

/-- RECALL (R110). -/
def execRecall (params : List Byte) (s : State) : Host.Outcome State Fault Refusal :=
  .next (request takenInRun 2 params (recallWork params) s)

/-- The work of SET_LEVEL: port, level (R111). -/
def setLevelWork (params : List Byte) (s : State) : State × Response :=
  match enabledPort s (byteAt params 0) with
  | none => refuse s .range
  | some p => if 15 < byteAt params 1 then refuse s .range else (setPortLevel s p (byteAt params 1), okWith [])

/-- SET_LEVEL (R111). -/
def execSetLevel (params : List Byte) (s : State) : Host.Outcome State Fault Refusal :=
  .next (request takenInRun 2 params (setLevelWork params) s)

/-! ### READ_STATUS (R78, R98, R126, R145, R158, R166, R180) -/

/-- The payload of a port's status (R145, R180). -/
def portStatus (c : ConsolePort) : List Byte :=
  [byte (portStateCode c.state), byte c.good] ++ timerBytes c.watchdog
    ++ c.image.toList.flatMap (fun w => bytes2 w.toNat)
    ++ [byte c.level, byte (flagCode c.recallSlot.inProgress), byte (c.recallSlot.pendingPiston.getD 0xFF)]

/-- READ_STATUS of PORT: the port byte (R145). -/
def execReadStatusPort (params : List Byte) (s : State) : Host.Outcome State Fault Refusal :=
  .next (request takenAlways 1 params (fun s => (s, portAnswer s (byteAt params 0) true portStatus)) s)

/-- The payload of a rail's status (R78, R180). -/
def railStatus (r : Rail) : List Byte :=
  bytes2 r.draw ++ [byte (flagCode r.strained)] ++ bytes2 r.deferred.length ++ timerBytes r.deferred.head?

/-- READ_STATUS of RAIL: the rail number (R78). -/
def execReadStatusRail (params : List Byte) (s : State) : Host.Outcome State Fault Refusal :=
  .next (request takenAlways 1 params
    (fun s => (s, entryAnswer (within 0 3 (byteAt params 0)) (railStatus (railAt s (byteAt params 0))))) s)

/-- The number of outlets of a link in the fault set (R158). -/
def faultsOnLink (s : State) (l : Nat) : Nat :=
  (s.faults.filter fun n => n / 1024 == l).length

/-- The payload of a link's status (R158, R180). -/
def linkStatus (s : State) (l : Nat) : List Byte :=
  [linkStateCode (linkAt s l).state, (linkAt s l).miss, flightCode (linkAt s l).flight].map byte
    ++ bytes2 (faultsOnLink s l)

/-- READ_STATUS of LINK: the link number (R158). -/
def execReadStatusLink (params : List Byte) (s : State) : Host.Outcome State Fault Refusal :=
  .next (request takenAlways 1 params
    (fun s => (s, entryAnswer (within 0 3 (byteAt params 0)) (linkStatus s (byteAt params 0)))) s)

/-- The payload of an expression entry's status (R126, R180). -/
def exprStatus (r : ExprRun) : List Byte :=
  [r.stage, flagCode r.faulted, r.runCount].map byte ++ bytes2 r.lastValue

/-- READ_STATUS of EXPRESSION: the entry number (R126). -/
def execReadStatusExpression (params : List Byte) (s : State) : Host.Outcome State Fault Refusal :=
  .next (request takenAlways 1 params
    (fun s => (s, entryAnswer (within 0 7 (byteAt params 0)) (exprStatus (runAt s (byteAt params 0))))) s)

/-- READ_STATUS of STOP_SETS: the drawn set and the effective set (R98). Its number byte is not examined (R180). -/
def execReadStatusStopSets (params : List Byte) (s : State) : Host.Outcome State Fault Refusal :=
  .next (request takenAlways 1 params
    (fun s => (s, okWith (stopSetBytes s.drawn ++ stopSetBytes (effectiveSet s)))) s)

/-- The payload of the mode's status: the two numbers are 0 outside QUIESCING (R166, R180). -/
def modeStatus (s : State) : List Byte :=
  let quiescing := s.mode == .quiescing
  [byte (modeCode s.mode)] ++ bytes2 (keepIf quiescing (recordsInUse s))
    ++ [byte (keepIf quiescing (four.filter (unserved s)).length)]

/-- READ_STATUS of MODE (R166). Its number byte is not examined (R180). -/
def execReadStatusMode (params : List Byte) (s : State) : Host.Outcome State Fault Refusal :=
  .next (request takenAlways 1 params (fun s => (s, okWith (modeStatus s))) s)

/-! ### Attention (R170 to R172) -/

/-- The payload of READ_ATTENTION: pending, enabled, lead with its detail, first (R171, R180). -/
def attentionStatus (s : State) : List Byte :=
  let lead := leadCause s
  let detail : Detail := match lead with
    | none => .none
    | some c => look s.details (Cause.bit c) .none
  causeSetBytes s.pendingCauses ++ causeSetBytes s.enabledCauses ++ [byte (causeCode lead)] ++ Detail.toBytes detail
    ++ [byte (causeCode s.firstCause)]

/-- READ_ATTENTION (R171). -/
def execReadAttention (params : List Byte) (s : State) : Host.Outcome State Fault Refusal :=
  .next (request takenAlways 0 params (fun s => (s, okWith (attentionStatus s))) s)

/-- The cause set of two bytes, none when it names a cause beyond the twelve (R170, R172, R179). -/
def causeSetAt (params : List Byte) : Option CauseSet :=
  if wordAt params 0 < 4096 then some (BitVec.ofNat 12 (wordAt params 0)) else none

/-- The work of CLEAR_ATTENTION (R172). -/
def clearAttentionWork (params : List Byte) (s : State) : State × Response :=
  match causeSetAt params with
  | none => refuse s .range
  | some x =>
    let left := s.pendingCauses &&& ~~~ x
    ({ s with pendingCauses := left }, okWith (causeSetBytes left))

/-- CLEAR_ATTENTION (R172). -/
def execClearAttention (params : List Byte) (s : State) : Host.Outcome State Fault Refusal :=
  .next (request takenPlaying 2 params (clearAttentionWork params) s)

/-- The work of WRITE_ATTENTION_ENABLE (R170). -/
def writeAttentionEnableWork (params : List Byte) (s : State) : State × Response :=
  match causeSetAt params with
  | none => refuse s .range
  | some x => ({ s with enabledCauses := x }, okWith (causeSetBytes x))

/-- WRITE_ATTENTION_ENABLE (R170). -/
def execWriteAttentionEnable (params : List Byte) (s : State) : Host.Outcome State Fault Refusal :=
  .next (request takenPlaying 2 params (writeAttentionEnableWork params) s)

/-! ### Counters (R173) -/

/-- READ_COUNTERS (R173, R180). -/
def execReadCounters (params : List Byte) (s : State) : Host.Outcome State Fault Refusal :=
  .next (request takenAlways 0 params
    (fun s => (s, okWith (s.counters.toList.flatMap fun w => bytes2 w.toNat))) s)

/-- CLEAR_COUNTERS (R173). -/
def execClearCounters (params : List Byte) (s : State) : Host.Outcome State Fault Refusal :=
  .next (request takenPlaying 0 params
    (fun s => ({ s with counters := Vector.replicate 24 0 }, okWith [])) s)

/-! ### The dirty list (R114) -/

/-- The payload of READ_DIRTY (R114, R180). -/
def dirtyStatus (s : State) : List Byte :=
  [byte s.dirty.length, byte (flagCode s.dirtyOverflow)] ++ s.dirty.flatMap fun x => [byte x.1, byte x.2]

/-- READ_DIRTY (R114): the same step empties the list and clears its flag. -/
def execReadDirty (params : List Byte) (s : State) : Host.Outcome State Fault Refusal :=
  .next (request takenAlways 0 params
    (fun s => ({ s with dirty := [], dirtyOverflow := false }, okWith (dirtyStatus s))) s)

/-! ### The fault set (R156, R157) -/

/-- A number is that of a valid outlet (0.9 convention 5, R156). -/
def validOutlet (n : Nat) : Bool :=
  decide (n ≤ 4095) && decide (n % 1024 < 768)

/-- The work of CLEAR_FAULT of one outlet (R156). -/
def clearFaultOneWork (params : List Byte) (s : State) : State × Response :=
  let n := wordAt params 0
  if validOutlet n = false then refuse s .range
  else if s.faults.contains n = false then refuse s .notFound
  else ({ s with faults := s.faults.filter fun m => m != n }, okWith [])

/-- CLEAR_FAULT with selector 0 (R156, R179). -/
def execClearFaultOne (params : List Byte) (s : State) : Host.Outcome State Fault Refusal :=
  .next (request takenPlaying 2 params (clearFaultOneWork params) s)

/-- CLEAR_FAULT with selector 1 (R156, R179). -/
def execClearFaultAll (params : List Byte) (s : State) : Host.Outcome State Fault Refusal :=
  .next (request takenPlaying 0 params
    (fun s => ({ s with faults := [] }, okWith (bytes2 s.faults.length))) s)

/-- The work of NEXT_FAULT (R157). -/
def nextFaultWork (params : List Byte) (s : State) : State × Response :=
  if 4095 < wordAt params 0 then refuse s .range
  else
    match s.faults.find? fun n => decide (wordAt params 0 ≤ n) with
    | none => refuse s .notFound
    | some n => (s, okWith (bytes2 n))

/-- NEXT_FAULT (R157). -/
def execNextFault (params : List Byte) (s : State) : Host.Outcome State Fault Refusal :=
  .next (request takenAlways 2 params (nextFaultWork params) s)

end Sys2Proof.Machine
end

