-- ==== Sys2Proof/Machine/Timers.lean ====
section
/-! DEFINITION. The meanings of the timers of the sounding records (R31, R34, R38, R50, R52, R54, R55, R58, R60). A
settle or strike expiry that leaves the table empty in QUIESCING may complete the quiesce (R46, R166). -/

namespace Sys2Proof.Machine

/-- WAIT_TIMER_EXPIRY (R31, R77). -/
def execWaitTimerExpiry (index : Fin 448) (s : State) : Host.Outcome State Fault Refusal :=
  .next (waitExpiry s index.val)

/-- PULL_TIMER_EXPIRY (R34). -/
def execPullTimerExpiry (index : Fin 448) (s : State) : Host.Outcome State Fault Refusal :=
  .next (pullExpiry s index.val)

/-- SETTLE_TIMER_EXPIRY (R38, R52, R58). -/
def execSettleTimerExpiry (index : Fin 448) (s : State) : Host.Outcome State Fault Refusal :=
  .next (settleMode (settleExpiry s index.val))

/-- STRIKE_TIMER_EXPIRY (R50, R54). -/
def execStrikeTimerExpiry (index : Fin 448) (s : State) : Host.Outcome State Fault Refusal :=
  .next (settleMode (strikeExpiry s index.val))

/-- CYCLE_TIMER_EXPIRY (R55). -/
def execCycleTimerExpiry (index : Fin 448) (s : State) : Host.Outcome State Fault Refusal :=
  .next (cycleExpiry s index.val)

/-- PROTECTION_TIMER_EXPIRY (R60). -/
def execProtectionTimerExpiry (index : Fin 448) (s : State) : Host.Outcome State Fault Refusal :=
  .next (protectionExpiry s index.val)

end Sys2Proof.Machine
end

