-- ==== Sys2Proof/Machine/Dispatch.lean ====
section
/-! DEFINITION. One arm for each command of spec/opcode_table.json, each a direct call of its meaning. -/

namespace Sys2Proof.Machine

/-- The effect of a command on everything but the queue. -/
def exec (i : Instr) (s : State) : Host.Outcome State Fault Refusal :=
  match i with
  | .powerOnReset line => Sys2Proof.Machine.execPowerOnReset s line
  | .voidTransaction bytes => Sys2Proof.Machine.execVoidTransaction bytes s
  | .requestCheckFailed bytes => Sys2Proof.Machine.execRequestCheckFailed bytes s
  | .unknownRequest code params => Sys2Proof.Machine.execUnknownRequest code params s
  | .requestDiscarded => Sys2Proof.Machine.execRequestDiscarded s
  | .fetch clocked => Sys2Proof.Machine.execFetch clocked s
  | .tableRead params => Sys2Proof.Machine.execTableRead params s
  | .tableWriteRank params => Sys2Proof.Machine.execTableWriteRank params s
  | .tableWriteStop params => Sys2Proof.Machine.execTableWriteStop params s
  | .tableWriteSlotMap params => Sys2Proof.Machine.execTableWriteSlotMap params s
  | .tableWriteReturnMap params => Sys2Proof.Machine.execTableWriteReturnMap params s
  | .tableWritePort params => Sys2Proof.Machine.execTableWritePort params s
  | .tableWriteLink params => Sys2Proof.Machine.execTableWriteLink params s
  | .tableWriteRail params => Sys2Proof.Machine.execTableWriteRail params s
  | .tableWriteGrant params => Sys2Proof.Machine.execTableWriteGrant params s
  | .tableWriteCombination params => Sys2Proof.Machine.execTableWriteCombination params s
  | .tableWriteCrescendo params => Sys2Proof.Machine.execTableWriteCrescendo params s
  | .tableWriteExpression params => Sys2Proof.Machine.execTableWriteExpression params s
  | .tableWriteMute params => Sys2Proof.Machine.execTableWriteMute params s
  | .start params => Sys2Proof.Machine.execStart params s
  | .stop params => Sys2Proof.Machine.execStop params s
  | .restart params => Sys2Proof.Machine.execRestart params s
  | .allClear params => Sys2Proof.Machine.execAllClear params s
  | .recallPiston params => Sys2Proof.Machine.execRecall params s
  | .setLevel params => Sys2Proof.Machine.execSetLevel params s
  | .lookup params => Sys2Proof.Machine.execLookup params s
  | .nextRecord params => Sys2Proof.Machine.execNextRecord params s
  | .silence params => Sys2Proof.Machine.execSilence params s
  | .readStatusPort params => Sys2Proof.Machine.execReadStatusPort params s
  | .readStatusRail params => Sys2Proof.Machine.execReadStatusRail params s
  | .readStatusLink params => Sys2Proof.Machine.execReadStatusLink params s
  | .readStatusExpression params => Sys2Proof.Machine.execReadStatusExpression params s
  | .readStatusStopSets params => Sys2Proof.Machine.execReadStatusStopSets params s
  | .readStatusMode params => Sys2Proof.Machine.execReadStatusMode params s
  | .readAttention params => Sys2Proof.Machine.execReadAttention params s
  | .clearAttention params => Sys2Proof.Machine.execClearAttention params s
  | .writeAttentionEnable params => Sys2Proof.Machine.execWriteAttentionEnable params s
  | .readCounters params => Sys2Proof.Machine.execReadCounters params s
  | .clearCounters params => Sys2Proof.Machine.execClearCounters params s
  | .readDirty params => Sys2Proof.Machine.execReadDirty params s
  | .clearFaultOne params => Sys2Proof.Machine.execClearFaultOne params s
  | .clearFaultAll params => Sys2Proof.Machine.execClearFaultAll params s
  | .nextFault params => Sys2Proof.Machine.execNextFault params s
  | .startMark mark => Sys2Proof.Machine.execStartMark mark s
  | .earlyStartMark mark => Sys2Proof.Machine.execEarlyStartMark mark s
  | .scanFrame port slots => Sys2Proof.Machine.execScanFrame port slots s
  | .watchdogExpiry port => Sys2Proof.Machine.execWatchdogExpiry port s
  | .driveTimerExpiry port => Sys2Proof.Machine.execDriveTimerExpiry port s
  | .waitTimerExpiry index => Sys2Proof.Machine.execWaitTimerExpiry index s
  | .pullTimerExpiry index => Sys2Proof.Machine.execPullTimerExpiry index s
  | .settleTimerExpiry index => Sys2Proof.Machine.execSettleTimerExpiry index s
  | .strikeTimerExpiry index => Sys2Proof.Machine.execStrikeTimerExpiry index s
  | .cycleTimerExpiry index => Sys2Proof.Machine.execCycleTimerExpiry index s
  | .protectionTimerExpiry index => Sys2Proof.Machine.execProtectionTimerExpiry index s
  | .periodTimerExpiry link => Sys2Proof.Machine.execPeriodTimerExpiry link s
  | .keepAliveExpiry link => Sys2Proof.Machine.execKeepAliveExpiry link s
  | .onDemandFrameStart link => Sys2Proof.Machine.execOnDemandFrameStart link s
  | .frameSent link => Sys2Proof.Machine.execFrameSent link s
  | .replyPeriodClose link words => Sys2Proof.Machine.execReplyPeriodClose link words s

end Sys2Proof.Machine
end

