-- ==== Sys2Proof/Machine/Step.lean ====
section
/-! DEFINITION. One step of the relay: the command at the front of the queue, taken whole; with none waiting, an event
that is due by itself, or one millisecond. -/

namespace Sys2Proof.Machine

/-- With no command waiting: a due event is taken, any one of those that are due together (4.10.3; log 3), and with
none due one millisecond passes (log 1). -/
def idleStep (s : State) : Host.Outcome State Fault Refusal :=
  match dueEvents s with
  | [] => .next (passMillisecond s)
  | [c] => exec c s
  | c :: d :: t =>
    let due := c :: d :: t
    exec (due.getD (Config.freeChoice s.choices % due.length) c) { s with choices := s.choices + 1 }

/-- One step: the command at the front of the queue, or the relay by itself (log 1). -/
def step (s : State) : Host.Outcome State Fault Refusal :=
  match s.pending with
  | [] => idleStep s
  | c :: rest => exec c { s with pending := rest }

/-- The state with the command a table word spells put at the front of its queue; unchanged, for no word spells one
(`decodeTableWord`). -/
def State.withFetchWord (s : State) (nbits w : Nat) : State :=
  match decodeTableWord nbits w with
  | none => s
  | some c => { s with pending := c :: s.pending }

/-- The state after a service-port transaction has been clocked in: its command waits at the end of the queue (R159,
R177). -/
def State.withTransaction (s : State) (bytes : List Byte) : State :=
  { s with pending := s.pending ++ [decodeTransaction bytes] }

end Sys2Proof.Machine
end

