-- ==== Sys2Proof/Safety.lean ====
section
/-! DEFINITION. The predicates the statements speak in: which commands are requests and what R163 says of each, what the
bytes of a table write must be, where ranks and shades lie on a link, what admission and release make of the records,
and the invariants of the relay's tables, lists and modes. -/

namespace Sys2Proof

/-! ### Requests (R161, R163, R177) -/

/-- A command is a request transaction: every one of them is discarded while a response is outstanding (R161). -/
def Instr.isRequest : Instr → Bool
  | .requestCheckFailed _ | .unknownRequest _ _ | .requestDiscarded | .tableRead _ | .tableWriteRank _
  | .tableWriteStop _ | .tableWriteSlotMap _ | .tableWriteReturnMap _ | .tableWritePort _ | .tableWriteLink _
  | .tableWriteRail _ | .tableWriteGrant _ | .tableWriteCombination _ | .tableWriteCrescendo _
  | .tableWriteExpression _ | .tableWriteMute _ | .start _ | .stop _ | .restart _ | .allClear _ | .recallPiston _
  | .setLevel _ | .lookup _ | .nextRecord _ | .silence _ | .readStatusPort _ | .readStatusRail _ | .readStatusLink _
  | .readStatusExpression _ | .readStatusStopSets _ | .readStatusMode _ | .readAttention _ | .clearAttention _
  | .writeAttentionEnable _ | .readCounters _ | .clearCounters _ | .readDirty _ | .clearFaultOne _
  | .clearFaultAll _ | .nextFault _ => true
  | .powerOnReset _ | .voidTransaction _ | .fetch _ | .startMark _ | .earlyStartMark _ | .scanFrame _ _
  | .watchdogExpiry _ | .driveTimerExpiry _ | .waitTimerExpiry _ | .pullTimerExpiry _ | .settleTimerExpiry _
  | .strikeTimerExpiry _ | .cycleTimerExpiry _ | .protectionTimerExpiry _ | .periodTimerExpiry _
  | .keepAliveExpiry _ | .onDemandFrameStart _ | .frameSent _ | .replyPeriodClose _ _ => false

/-- The parameters of a request of a row of the table of R163; none for every other command. -/
def Instr.parameters : Instr → Option (List Byte)
  | .tableRead p | .tableWriteRank p | .tableWriteStop p | .tableWriteSlotMap p | .tableWriteReturnMap p
  | .tableWritePort p | .tableWriteLink p | .tableWriteRail p | .tableWriteGrant p | .tableWriteCombination p
  | .tableWriteCrescendo p | .tableWriteExpression p | .tableWriteMute p | .start p | .stop p | .restart p
  | .allClear p | .recallPiston p | .setLevel p | .lookup p | .nextRecord p | .silence p | .readStatusPort p
  | .readStatusRail p | .readStatusLink p | .readStatusExpression p | .readStatusStopSets p | .readStatusMode p
  | .readAttention p | .clearAttention p | .writeAttentionEnable p | .readCounters p | .clearCounters p
  | .readDirty p | .clearFaultOne p | .clearFaultAll p | .nextFault p => some p
  | .powerOnReset _ | .voidTransaction _ | .requestCheckFailed _ | .unknownRequest _ _ | .requestDiscarded | .fetch _
  | .startMark _ | .earlyStartMark _ | .scanFrame _ _ | .watchdogExpiry _ | .driveTimerExpiry _ | .waitTimerExpiry _
  | .pullTimerExpiry _ | .settleTimerExpiry _ | .strikeTimerExpiry _ | .cycleTimerExpiry _
  | .protectionTimerExpiry _ | .periodTimerExpiry _ | .keepAliveExpiry _ | .onDemandFrameStart _ | .frameSent _
  | .replyPeriodClose _ _ => none

/-- The table of R163: a request is taken in a mode. A command that is no row of it counts as taken. -/
def Instr.takenIn (c : Instr) (m : Machine.Mode) : Bool :=
  match c with
  | .tableWriteRank _ | .tableWriteStop _ | .tableWriteGrant _ | .tableWriteCombination _ | .tableWriteCrescendo _
  | .tableWriteExpression _ | .tableWriteMute _ | .clearFaultOne _ | .clearFaultAll _ | .clearAttention _
  | .writeAttentionEnable _ | .clearCounters _ => m == .config || m == .run
  | .tableWriteSlotMap _ | .tableWriteReturnMap _ | .tableWritePort _ | .tableWriteLink _ | .tableWriteRail _
  | .start _ => m == .config
  | .stop _ | .allClear _ | .silence _ | .recallPiston _ | .setLevel _ => m == .run
  | _ => true

/-- The number of parameter bytes a request carries after its discriminating byte, by R177 and R178; none for
TABLE_READ, whose length its table gives, and for a command that is no request. -/
def Instr.parameterLength : Instr → Option Nat
  | .tableWriteRank _ => some 18
  | .tableWriteStop _ => some 10
  | .tableWriteSlotMap _ => some 7
  | .tableWriteReturnMap _ => some 4
  | .tableWritePort _ => some 8
  | .tableWriteLink _ => some 9
  | .tableWriteRail _ => some 8
  | .tableWriteGrant _ => some 2
  | .tableWriteCombination _ => some 34
  | .tableWriteCrescendo _ => some 33
  | .tableWriteExpression _ => some 18
  | .tableWriteMute _ => some 6
  | .start _ | .stop _ | .restart _ | .allClear _ | .readAttention _ | .readCounters _ | .clearCounters _
  | .readDirty _ | .clearFaultAll _ => some 0
  | .recallPiston _ | .setLevel _ | .lookup _ | .nextRecord _ | .silence _ | .clearAttention _ | .writeAttentionEnable _
  | .clearFaultOne _ | .nextFault _ => some 2
  | .readStatusPort _ | .readStatusRail _ | .readStatusLink _ | .readStatusExpression _ | .readStatusStopSets _
  | .readStatusMode _ => some 1
  | _ => none

namespace Machine

/-! ### The port and the answered state -/

/-- The service port can take a request: the RESET line is released and no response is outstanding (R161, R168). -/
abbrev PortFree (s : State) : Prop :=
  s.resetLine = .released ∧ s.response = none

/-- The state a request leaves when it changes nothing but the response: what data-out carried is the idle fill, and
the response waits (R159, R177). -/
def answered (s : State) (st : Status) (payload : List Byte) : State :=
  { s with dataOut := [], response := some { status := st, payload := payload } }

/-! ### What the parameter bytes of a table write must be, and the entry they spell -/

/-- The bytes of a RANK write after its rank number, every field the kind uses in its range of R2. A damper present on a
kind that has none does not fit (R4); that the damper byte of such a kind is looked at, and that the slot and bit of
an absent damper are not, is the model's reading (log 11). -/
def RankBytesFit (b : Nat → Nat) : Prop :=
  b 1 ≤ 5
    ∧ (b 1 ≠ 0 → b 4 ≤ 3 ∧ b 5 ≤ 47 ∧ b 6 ≤ 15)
    ∧ (b 1 = 5 → b 3 = 1)
    ∧ (1 ≤ b 1 ∧ b 1 ≤ 4 → b 2 ≤ 127 ∧ 1 ≤ b 3 ∧ b 3 ≤ 97 ∧ b 7 ≤ 3 ∧ 1 ≤ b 8 ∧ b 11 ≤ 63)
    ∧ (b 1 = 1 ∨ b 1 = 4 → 1 ≤ b 10 ∧ b 10 ≤ 63)
    ∧ (b 1 = 2 ∨ b 1 = 3 → 1 ≤ b 12 ∧ b 12 ≤ 63 ∧ (b 15 = 0 ∨ b 15 = 1 ∧ b 16 ≤ 47 ∧ b 17 ≤ 15))
    ∧ (b 1 = 3 → 20 ≤ b 13)
    ∧ (b 1 = 1 ∨ b 1 = 4 ∨ b 1 = 5 → b 15 = 0)

/-- The entry a RANK write spells, a field its kind does not use stored as 0 (R1, R2, R178). A STRIKE or REITERATE rank
whose damper is absent keeps no slot and bit of it, which is the model's choice (log 23). -/
def rankWritten (b : Nat → Nat) : RankEntry :=
  let records := decide (1 ≤ b 1 ∧ b 1 ≤ 4)
  let speaks := decide (b 1 = 1 ∨ b 1 = 4)
  let strikes := decide (b 1 = 2 ∨ b 1 = 3)
  { kind := (rankKindOfCode (b 1)).getD .unused
    low := if records then b 2 else 0
    count := if b 1 ≠ 0 then b 3 else 0
    link := if b 1 ≠ 0 then b 4 else 0
    slot := if b 1 ≠ 0 then b 5 else 0
    bit := if b 1 ≠ 0 then b 6 else 0
    rail := if records then b 7 else 0
    pull := if records then b 8 else 0
    hold := if speaks then b 9 else 0
    pullTime := if speaks then b 10 else 0
    minOff := if records then b 11 else 0
    strikeTime := if strikes then b 12 else 0
    period := if b 1 = 3 then b 13 else 0
    maxHold := if b 1 = 4 then b 14 else 0
    damper := if strikes ∧ b 15 = 1 then some (b 16, b 17) else none }

/-- A byte as a signed number (R178). -/
def signedByte (n : Nat) : Int :=
  if n < 128 then n else (n : Int) - 256

/-- The bytes of a STOP write after its stop number, as R7 and R8 want them. -/
def StopBytesFit (b : Nat → Nat) : Prop :=
  b 2 ≤ 3
    ∧ (b 2 ≠ 0 → b 4 ≤ 63)
    ∧ (b 2 = 1 ∨ b 2 = 3 → b 1 ≤ 4)
    ∧ (b 2 = 2 → b 1 ≤ 5 ∧ b 6 ≤ 96 ∧ (b 1 = 5 → b 3 = 0))
    ∧ (b 2 = 1 ∨ b 2 = 2 → b 3 ≤ 1 ∧ b 7 < Config.compass (b 1) ∧ b 8 < Config.compass (b 1))
    ∧ (b 2 = 1 → -24 ≤ signedByte (b 5) ∧ signedByte (b 5) ≤ 48 ∧ b 9 ≤ 1)

/-- The entry a STOP write spells, a field its kind does not use stored as 0, FIRST or SILENT (R7, R178). -/
def stopWritten (b : Nat → Nat) : StopEntry :=
  let keyed := decide (b 2 = 1 ∨ b 2 = 2)
  { division := if b 2 ≠ 0 then b 1 else 0
    kind := (stopKindOfCode (b 2)).getD .unused
    touch := if keyed ∧ b 3 = 1 then .second else .first
    rank := if b 2 ≠ 0 then b 4 else 0
    offset := if b 2 = 1 then signedByte (b 5) else 0
    pipe := if b 2 = 2 then b 6 else 0
    windowLow := if keyed then b 7 else 0
    windowHigh := if keyed then b 8 else 0
    breakMode := if b 2 = 1 ∧ b 9 = 1 then .fold else .silent }

/-- The bytes of a SLOT_MAP write after its port, as R129 and R130 want them. -/
def SlotBytesFit (b : Nat → Nat) : Prop :=
  b 1 ≤ 63 ∧ b 2 ≤ 4
    ∧ (b 2 = 1 → b 3 ≤ 5 ∧ b 4 ≤ 1 ∧ b 5 < Config.compass (b 3) ∧ (b 3 = 5 → b 4 = 0))
    ∧ (b 2 = 3 → b 5 ≤ 63)
    ∧ (1 ≤ b 2 ∧ b 2 ≤ 3 → 1 ≤ b 6 ∧ b 6 ≤ 4)

/-- The entry a SLOT_MAP write spells (R129, R130, R178). -/
def slotWritten (b : Nat → Nat) : SlotEntry :=
  { kind := (slotKindOfCode (b 2)).getD .unused
    division := if b 2 = 1 then b 3 else 0
    touch := if b 2 = 1 ∧ b 4 = 1 then .second else .first
    first := if 1 ≤ b 2 ∧ b 2 ≤ 3 then b 5 else 0
    debounce := if 1 ≤ b 2 ∧ b 2 ≤ 3 then b 6 else 0 }

/-- The bytes of a PORT write after its port, as R127 and R128 want them. -/
def PortBytesFit (b : Nat → Nat) : Prop :=
  b 1 ≤ 1 ∧ 2 ≤ b 2 ∧ b 2 ≤ 64 ∧ b 3 ≤ 32 ∧ b 3 ≤ b 2 ∧ 2 ≤ b 4 ∧ b 4 ≤ 250 ∧ 1 ≤ b 5 ∧ b 5 ≤ 15
    ∧ 20 ≤ 256 * b 6 + b 7 ∧ 256 * b 6 + b 7 ≤ 500 ∧ (256 * b 6 + b 7) % 10 = 0

/-- The entry a PORT write spells (R127, R178). -/
def portWritten (b : Nat → Nat) : PortEntry :=
  { enabled := b 1 == 1, dataSlots := b 2, returnSlots := b 3, watchdog := b 4, recovery := b 5
    drivePeriod := 256 * b 6 + b 7 }

/-- The bytes of a LINK write after its link, as R146 and R147 want them. -/
def LinkBytesFit (b : Nat → Nat) : Prop :=
  b 1 ≤ 1 ∧ 1 ≤ b 2 ∧ b 2 ≤ 48 ∧ b 3 ≤ 2 ∧ b 4 ≤ 1 ∧ (b 4 = 0 → 1 ≤ b 5 ∧ b 5 ≤ 20)
    ∧ (b 4 = 1 → 10 ≤ 256 * b 6 + b 7 ∧ 256 * b 6 + b 7 ≤ 1000 ∧ (256 * b 6 + b 7) % 10 = 0) ∧ 1 ≤ b 8 ∧ b 8 ≤ 15

/-- The entry a LINK write spells, the field of the other mode stored as 0 (R146, R147, R178). -/
def linkWritten (b : Nat → Nat) : LinkEntry :=
  { enabled := b 1 == 1, slots := b 2, rate := b 3, mode := if b 4 = 1 then .onDemand else .periodic
    period := if b 4 = 1 then 0 else b 5
    keepAlive := if b 4 = 1 then 256 * b 6 + b 7 else 0
    downThreshold := b 8 }

/-- The bytes of a RAIL write after its rail, as R66 and R67 want them. -/
def RailBytesFit (b : Nat → Nat) : Prop :=
  256 * b 1 + b 2 ≤ 4095 ∧ 256 * b 3 + b 4 ≤ 256 * b 1 + b 2 ∧ 256 * b 5 + b 6 < 256 * b 3 + b 4
    ∧ 1 ≤ 256 * b 5 + b 6 ∧ 1 ≤ b 7

/-- The entry a RAIL write spells (R66, R178). -/
def railWritten (b : Nat → Nat) : RailEntry :=
  { capacity := 256 * b 1 + b 2, high := 256 * b 3 + b 4, low := 256 * b 5 + b 6, deferLimit := b 7 }

/-- The bytes of an EXPRESSION write after its entry number, every field in its range of R115 and the low limit below
the high one (R116). -/
def ExprBytesFit (b : Nat → Nat) : Prop :=
  b 1 ≤ 1 ∧ (b 2 = 1 ∨ b 2 = 2) ∧ b 3 ≤ 63 ∧ 256 * b 4 + b 5 ≤ 4095 ∧ 256 * b 8 + b 9 ≤ 4095
    ∧ 256 * b 6 + b 7 < 256 * b 8 + b 9 ∧ b 11 ≤ 1 ∧ 1 ≤ b 12 ∧ b 12 ≤ 15
    ∧ (b 13 = 1 ∧ b 14 ≤ 3 ∧ b 15 ≤ 47 ∧ b 16 ≤ 15 ∧ 1 ≤ b 17 ∧ b 17 ≤ 12 ∨ b 13 = 2 ∧ 1 ≤ b 17 ∧ b 17 ≤ 15)

/-- The entry an EXPRESSION write spells, link and outlet stored as 0 for CRESCENDO (R115, R178). -/
def exprWritten (b : Nat → Nat) : ExprEntry :=
  { enabled := b 1 == 1
    port := some (if b 2 = 1 then .A else .B)
    slot := b 3
    offset := 256 * b 4 + b 5
    low := 256 * b 6 + b 7
    high := 256 * b 8 + b 9
    hysteresis := b 10
    faultDetect := b 11 == 1
    faultCount := b 12
    target := if b 13 = 1 then .shade else .crescendo
    link := if b 13 = 1 then b 14 else 0
    outSlot := if b 13 = 1 then b 15 else 0
    outBit := if b 13 = 1 then b 16 else 0
    stages := b 17 }

/-! ### Positions on a link (R3, R4, R115) -/

/-- A rank whose kind is not UNUSED has a pipe or its damper at a position of its link. -/
def Occupies (e : RankEntry) (pos : Nat) : Prop :=
  e.kind ≠ .unused
    ∧ ((e.slot * 16 + e.bit ≤ pos ∧ pos < e.slot * 16 + e.bit + e.count)
      ∨ ∃ slot bit, e.damper = some (slot, bit) ∧ pos = slot * 16 + bit)

/-- A position lies in the shade range of an expression entry, enabled or not. -/
def Shades (x : ExprEntry) (pos : Nat) : Prop :=
  x.target = .shade ∧ x.outSlot * 16 + x.outBit ≤ pos ∧ pos < x.outSlot * 16 + x.outBit + x.stages

/-! ### Contacts as a port's accepted image has them (R129) -/

/-- Some contact of a port is a tab of a stop. -/
def TabMapped (c : ConsolePort) (n : Nat) : Prop :=
  ∃ i b, i < c.entry.dataSlots ∧ b < 16 ∧ (slotAt c i).kind = .tabs ∧ (slotAt c i).first + b = n

/-- Some tab of a stop is made. -/
def TabReadsMade (c : ConsolePort) (n : Nat) : Prop :=
  ∃ i b, i < c.entry.dataSlots ∧ b < 16 ∧ (slotAt c i).kind = .tabs ∧ (slotAt c i).first + b = n
    ∧ (imageAt c i).getLsbD b = true

/-- Some contact of a key of a division at a touch is made. -/
def KeyReadsMade (c : ConsolePort) (d : Nat) (t : Touch) (k : Nat) : Prop :=
  ∃ i b, i < c.entry.dataSlots ∧ b < 16 ∧ (slotAt c i).kind = .keys ∧ (slotAt c i).division = d
    ∧ (slotAt c i).touch = t ∧ (slotAt c i).first + b = k ∧ (imageAt c i).getLsbD b = true

/-- Some contact of the piston code 40 is made. -/
def SetReadsMade (c : ConsolePort) : Prop :=
  ∃ i b, i < c.entry.dataSlots ∧ b < 16 ∧ (slotAt c i).kind = .pistons ∧ (slotAt c i).first + b = 40
    ∧ (imageAt c i).getLsbD b = true

/-! ### Claims asked for (R18, R89, R90) -/

/-- What a key asks of a stop: a claim request where the Resolver names a rank and pipe, nothing at silence. -/
def asksClaim (s : State) (p : PortId) (d : Nat) (t : Touch) (u : State) (k n : Nat) : State :=
  match resolve s d k n with
  | none => u
  | some (rank, pipe) => claimRequest u { port := p, division := d, touch := t, key := k, stop := n } rank pipe

/-! ### Invariants -/

/-- At most one record is in use for a rank and pipe (R21). -/
def OneRecordPerPipe (s : State) : Prop :=
  ∀ i j r q, recordAt s i = some r → recordAt s j = some q → r.rank = q.rank → r.pipe = q.pipe → i = j

/-- Every claim list holds at most twelve claims, each identity at most once (R22). -/
def ClaimListsSound (s : State) : Prop :=
  ∀ i r, recordAt s i = some r → r.claims.Nodup ∧ r.claims.length ≤ Config.maxClaims

/-- The sounding table's invariant (R21, R22). -/
def TableSound (s : State) : Prop :=
  OneRecordPerPipe s ∧ ClaimListsSound s

/-- Some record holds a claim. -/
def HoldsClaim (s : State) (c : Claim) : Prop :=
  ∃ i r, recordAt s i = some r ∧ c ∈ r.claims

/-! ### Admission and release (R26 to R28, R30, R33, R36, R37, R39, R48, R49, R53, R57, R59, R61, R73) -/

/-- A record as its rail's admission leaves it: PULLING for PIPE and HELD, STRIKING for STRIKE and REITERATE, at the pull
units with its timer started and its overdue flag clear (R30, R32); a HELD record's protection timer at its maximum
hold, if it has one (R59); a stroke counted, to 255 (R49); and a roll's cycle begun (R48, R56). -/
def asAdmitted (e : RankEntry) (r : Record) : Record :=
  let strikes := decide (r.kind = .strike ∨ r.kind = .reiterate)
  let rolls := decide (r.kind = .reiterate)
  { r with
    state := if strikes then .striking else .pulling
    charge := e.pull
    phase := some (if strikes then e.strikeTime else e.pullTime)
    overdue := false
    strikeCount := if strikes then min 255 (r.strikeCount + 1) else r.strikeCount
    cycle := if rolls then some e.period else r.cycle
    cycleHeld := if rolls then false else r.cycleHeld
    paused := if rolls then false else r.paused
    protection := if r.kind = .held then (if e.maxHold = 0 then none else some (100 * e.maxHold)) else r.protection }

/-- What a record comes to at its last release, by its state; none where it is freed. WAITING (R33) and STRUCK (R53) are
freed. PULLING and SPEAKING (R36), RESTING (R57) and LOCKED (R61) enter SETTLING with charge 0 and the settle timer at
the rank's minimum off time, no other timer running and the paused flag clear, and are freed where that time is 0 (R39).
A pulse in STRIKING runs on with no cycle timer (R53, R57), and SETTLING runs on (R37). -/
def afterLastRelease (s : State) (r : Record) : Option Record :=
  match r.state with
  | .waiting | .struck => none
  | .pulling | .speaking | .resting | .locked =>
    let off := (rankAt s r.rank).minOff
    if off = 0 then none
    else
      some { r with
        claims := [], state := .settling, charge := 0, phase := some off, cycle := none, cycleHeld := false
        protection := none, paused := false }
  | .striking => some { r with claims := [], cycle := none, cycleHeld := false }
  | .settling => some { r with claims := [] }

/-- A release whose pattern is `hit` takes the last claims of the record `r` of index `i` (R27). -/
def losesLast (hit : Nat → Claim → Bool) (i : Nat) (r : Record) : Bool :=
  !r.claims.isEmpty && r.claims.all (hit i)

/-- The charge that a release whose pattern is `hit` gives back at index `i` to rail `k`: that of a record of the rail
which loses its last claim, unless its pulse or its settling runs on (R27, R69). -/
def givenBack (hit : Nat → Claim → Bool) (s : State) (k i : Nat) : Nat :=
  match recordAt s i with
  | none => 0
  | some r =>
    if railOf s r = k ∧ losesLast hit i r = true ∧ r.state ≠ .striking ∧ r.state ≠ .settling then r.charge else 0

/-- Index `i` leaves the deferred list of rail `k` in a release whose pattern is `hit` (R33). -/
def leavesList (hit : Nat → Claim → Bool) (s : State) (k i : Nat) : Bool :=
  match recordAt s i with
  | none => false
  | some r => decide (railOf s r = k) && r.state == .waiting && losesLast hit i r

/-- u has the sounding table and the rails of s as the visits of a release whose pattern is `hit` leave them, before the
allocator's work: each record its last release, or its claims that do not match, in their order; each draw less what the
rail is given back; each deferred list closed up over the records that leave it; strain as it was (R27, R28, R71). -/
def VisitedBy (hit : Nat → Claim → Bool) (s u : State) : Prop :=
  u.ranks = s.ranks ∧ u.counters = s.counters
    ∧ (∀ i, recordAt u i = (recordAt s i).bind fun r =>
        if losesLast hit i r then afterLastRelease s r
        else some { r with claims := r.claims.filter fun c => !hit i c })
    ∧ ∀ k, k < 4 → railAt u k = { railAt s k with
        draw := (railAt s k).draw - ((List.range 448).map (givenBack hit s k)).sum
        deferred := (railAt s k).deferred.filter fun i => !leavesList hit s k i }

/-- t has the sounding table, the rails and the counters of s as a release request whose pattern is `hit` leaves them,
taken whole: its visits, and then the allocator's work on each rail whose draw fell or whose list grew shorter (R28,
R73). -/
def ReleasedBy (hit : Nat → Claim → Bool) (s t : State) : Prop :=
  ∃ u w, VisitedBy hit s u
    ∧ w = [0, 1, 2, 3].foldl (fun v k =>
        if (railAt u k).draw < (railAt s k).draw ∨ (railAt u k).deferred.length < (railAt s k).deferred.length then
          allocatorWork v k
        else v) u
    ∧ t.table = w.table ∧ t.rails = w.rails ∧ t.counters = w.counters

/-- A port at rest: OFF with its receiver idle, no watchdog, no return frame, no start mark
taken or held, and an idle recall slot (R103, R135, R176). -/
def PortAtRest (c : ConsolePort) : Prop :=
  c.state = .off ∧ c.receiver = .idle ∧ c.watchdog = none ∧ c.returnFrame = none ∧ c.recallSlot = RecallSlot.idle
    ∧ c.framing = .unset ∧ c.overtaken = false

/-- What the mode rules out (R99, R108, R135, R148, R166): outside RUN the ports are at rest and the tremulants off; in
CONFIG the table is empty and every link IDLE. -/
def ModeSound (s : State) : Prop :=
  (s.mode ≠ .run → PortAtRest s.portA ∧ PortAtRest s.portB ∧ s.tremulants = 0)
    ∧ (s.mode = .config → tableEmpty s = true ∧ ∀ l, l < 4 → linkAt s l = Link.idle (linkAt s l).entry)

/-- The fault set is strictly ascending and holds valid outlets only, and no link carries more than 48 slots (R146,
R156). -/
def FaultsSound (s : State) : Prop :=
  s.faults.Pairwise (fun a b => a < b) ∧ (∀ n ∈ s.faults, validOutlet n = true)
    ∧ ∀ l, (linkAt s l).entry.slots ≤ 48

/-- The dirty list holds at most 32 names, each at most once (R113). -/
def DirtySound (s : State) : Prop :=
  s.dirty.Nodup ∧ s.dirty.length ≤ Config.maxDirty

/-- The bounded counts stay in their ranges: levels to 15 (R102), miss counts to 15 (R148), the discard tally to 255
(R161). -/
def CountsBounded (s : State) : Prop :=
  (∀ p, (portAt s p).level ≤ 15) ∧ (∀ l, (linkAt s l).miss ≤ 15) ∧ s.discardTally ≤ 255

/-- The sum of the charges of the records of rail `k` (R68). -/
def chargeSum (s : State) (k : Nat) : Nat :=
  ((List.range 448).map fun i =>
    match recordAt s i with
    | none => 0
    | some r => if railOf s r = k then r.charge else 0).sum

/-- The draw of each rail is the sum of the charges its records hold (R68), and every rank names one of the four rails
(R2). -/
def DrawSound (s : State) : Prop :=
  (∀ k, k < 4 → (railAt s k).draw = chargeSum s k) ∧ ∀ r, (rankAt s r).rail < 4

/-- At most one enabled entry has target CRESCENDO (R116). -/
def OneCrescendoEntry (s : State) : Prop :=
  ∀ e f, isCrescendoEntry (exprAt s e) = true → isCrescendoEntry (exprAt s f) = true → e = f

/-- In RUN the standing output of a rank is on exactly when the rank is TREMULANT and some effective TREMULANT stop
names it (R97). -/
def TremulantsFollowStops (s : State) : Prop :=
  s.mode = .run → ∀ r, s.tremulants.getLsbD r = true ↔
    (rankAt s r).kind = .tremulant
      ∧ ∃ n, n < 256 ∧ (stopAt s n).kind = .tremulant ∧ (stopAt s n).rank = r ∧ effective s n = true

/-- What the Registration and Expression units keep in step (R97, R116). -/
def RegistrationSound (s : State) : Prop :=
  OneCrescendoEntry s ∧ TremulantsFollowStops s

/-- A rail's deferred list holds exactly the indexes of its WAITING records, each once (R71). -/
def DeferredSound (s : State) : Prop :=
  ∀ k, k < 4 → (railAt s k).deferred.Nodup
    ∧ ∀ i, i ∈ (railAt s k).deferred ↔ ∃ r, recordAt s i = some r ∧ r.state = .waiting ∧ railOf s r = k

/-- A paused record is a REITERATE record in RESTING (R55, R56). -/
def PausedSound (s : State) : Prop :=
  ∀ i r, recordAt s i = some r → r.paused = true → r.kind = .reiterate ∧ r.state = .resting

/-- No rail's draw passes its capacity (R68, R70). -/
def DrawWithinCapacity (s : State) : Prop :=
  ∀ k, k < 4 → (railAt s k).draw ≤ (railAt s k).entry.capacity

/-- A hold charge is never above what a pull was charged (R2, R20): so it is of every rank, and so of every record in
PULLING; and a record has the kind of its rank (R19). -/
def ChargesFit (s : State) : Prop :=
  (∀ q, usesHold (rankAt s q).kind = true → holdCharge (rankAt s q) ≤ (rankAt s q).pull)
    ∧ ∀ i r, recordAt s i = some r →
      recordKind? (rankAt s r.rank).kind = some r.kind
        ∧ (r.state = .pulling → holdCharge (rankAt s r.rank) ≤ r.charge)

/-- What the sounding table and the rails keep in step. -/
def SupplySound (s : State) : Prop :=
  DeferredSound s ∧ PausedSound s ∧ DrawWithinCapacity s ∧ ChargesFit s

end Machine

end Sys2Proof
end

