-- ==== Sys2Proof/Certificates/Slice0/Obligations.lean ====
section
/-! DEFINITION. The statements for the provers, in the order of OBLIGATIONS.json: the step and the service port, the
tables, the modes, the host's requests, the console links, the effective set, the sounding records, the chamber
links, the units by themselves, and the invariants. -/

open Sys2Proof Sys2Proof.Machine

/-! ### The step and the service port -/

/-- A step takes the command at the front of the queue, with the queue's rest. The queue, and that a step takes the
command at its front, are the model's choice (log 1): the spec gives the relay no queue, and says only of two events
that fall together that one is taken first. -/
def Obligations.StepRunsFrontOfQueue : Prop :=
  ∀ (c : Instr) (rest : List Instr) (s : State),
    step { s with pending := c :: rest } = exec c { s with pending := rest }

/-- The model's choice (log 1, log 3). With no command waiting and no event due, a step lets one millisecond pass:
every running timer counts it, a timer that does not run stays none, and nothing else changes. With no command waiting
and events due, a step is one of them: with one due, that one, and with more, any one of them, the model's own count
of such choices rising by 1. Which one is open. -/
def Obligations.IdleStepPassesOneMillisecond : Prop :=
  (∀ s : State, s.pending = [] → dueEvents s = [] →
    ∃ t, step s = .next t
      ∧ (∀ i, recordAt t i = (recordAt s i).map fun r =>
          { r with
            phase := r.phase.map (· - 1), cycle := r.cycle.map (· - 1), protection := r.protection.map (· - 1) })
      ∧ (∀ p, portAt t p =
          { portAt s p with
            watchdog := (portAt s p).watchdog.map (· - 1)
            recallSlot := { (portAt s p).recallSlot with timer := (portAt s p).recallSlot.timer.map (· - 1) } })
      ∧ (∀ l, l < 4 → linkAt t l =
          { linkAt s l with
            period := (linkAt s l).period.map (· - 1), keepAlive := (linkAt s l).keepAlive.map (· - 1) })
      ∧ t = { s with table := t.table, portA := t.portA, portB := t.portB, links := t.links })
    ∧ (∀ (s : State) (c : Instr), s.pending = [] → dueEvents s = [c] → step s = exec c s)
    ∧ (∀ s : State, s.pending = [] → 2 ≤ (dueEvents s).length →
        ∃ c, c ∈ dueEvents s ∧ step s = exec c { s with choices := s.choices + 1 })

/-- While a response is outstanding every request transaction is discarded: it changes the tally, the counter and
nothing else. The tally is the second byte of the response next fetched, a full fetch sets it to 0, and a request that
arrives after that is answered. -/
def Obligations.OutstandingRequestDiscards : Prop :=
  (∀ (c : Instr) (s : State), c.isRequest = true → s.resetLine = .released → s.response.isSome = true →
      exec c s = .next { s with
        dataOut := [], discardTally := min 255 (s.discardTally + 1)
        counters := put s.counters 15 (countUp (look s.counters 15 0)) })
    ∧ (∀ (s : State) (r : Response) (n : Nat), s.resetLine = .released → s.response = some r →
        r.payload.length + 5 ≤ n →
        ∃ t, exec (.fetch n) s = .next t ∧ t.dataOut[1]? = some (byte s.discardTally) ∧ t.discardTally = 0
          ∧ t.response = none)
    ∧ (∀ (c : Instr) (s : State), c.isRequest = true → c ≠ .requestDiscarded → PortFree s →
        ∃ t, exec c s = .next t ∧ t.response.isSome = true)

/-- A fetch clocks out the waiting response, byte by byte after its opening byte; a full fetch consumes it and a partial
one leaves it waiting. With no response waiting every byte is the idle fill FF, and nothing changes. -/
def Obligations.FetchClocksOutResponse : Prop :=
  ∀ (s : State) (n : Nat), s.resetLine = .released →
    (s.response = none →
        exec (.fetch n) s = .next { s with dataOut := [] } ∧ ∀ i, dataOutByte { s with dataOut := [] } i = 0xFF#8)
    ∧ ∀ r, s.response = some r →
        let body := [byte (statusCode r.status), byte s.discardTally, byte (r.payload.length / 256),
          byte r.payload.length] ++ r.payload
        let bytes := body ++ [checkByte body]
        (bytes.length ≤ n →
            exec (.fetch n) s = .next { s with dataOut := bytes, response := none, discardTally := 0 })
        ∧ (n < bytes.length → exec (.fetch n) s = .next { s with dataOut := bytes.take n })
        ∧ (∀ t, exec (.fetch n) s = .next t → ∀ i, i < n → i < bytes.length →
            dataOutByte t (i + 1) = bytes.getD i 0)

/-- A void transaction changes nothing but what data-out carried, which is the idle fill FF throughout, as it is for
every request. A request whose check fails is answered CHECK and one whose code is no request's is answered UNKNOWN,
and neither changes anything else. The model's choice (log 13): a TABLE_WRITE of no table (code 11) and a READ_STATUS
of no item (50) are RANGE in every mode, and a CLEAR_FAULT of no form (81) is MODE in QUIESCING and RANGE otherwise. -/
def Obligations.TransactionsThatAreNoGoodRequest : Prop :=
  (∀ (bytes : List Byte) (s : State), exec (.voidTransaction bytes) s = .next { s with dataOut := [] })
    ∧ (∀ (bytes : List Byte) (s : State), PortFree s →
        exec (.requestCheckFailed bytes) s = .next (answered s .check []))
    ∧ (∀ (code : Byte) (params : List Byte) (s : State), PortFree s →
        (code.toNat ∉ 0x11 :: 0x50 :: 0x81 :: plainCodes →
            exec (.unknownRequest code params) s = .next (answered s .unknown []))
        ∧ (code.toNat = 0x11 ∨ code.toNat = 0x50 →
            exec (.unknownRequest code params) s = .next (answered s .range []))
        ∧ (code.toNat = 0x81 →
            exec (.unknownRequest code params) s =
              .next (answered s (if s.mode = .quiescing then .mode else .range) [])))
    ∧ (∀ (s : State) (st : Status) (payload : List Byte) (i : Nat), dataOutByte (answered s st payload) i = 0xFF#8
        ∧ dataOutByte { s with dataOut := [] } i = 0xFF#8)

/-- A request taken by the port is answered MODE exactly when the table of R163 does not take it in the present mode,
and then nothing else changes. One taken in the mode whose parameters are not of the length of its row is answered
RANGE, and then nothing else changes. -/
def Obligations.ModeAndLengthGovernRequests : Prop :=
  ∀ (c : Instr) (s : State), PortFree s →
    (c.parameters.isSome = true → c.takenIn s.mode = false → exec c s = .next (answered s .mode []))
    ∧ (c.parameters.isSome = true → c.takenIn s.mode = true →
        ∃ t r, exec c s = .next t ∧ t.response = some r ∧ r.status ≠ .mode)
    ∧ (∀ (p : List Byte) (n : Nat), c.parameters = some p → c.parameterLength = some n → p.length ≠ n →
        c.takenIn s.mode = true → exec c s = .next (answered s .range []))

/-! ### The tables -/

/-- TABLE_READ answers the stored entry of each table in every mode and changes nothing else. It is answered RANGE, with
nothing changed, for a length that is not that of its table's index, for a table code above 11, for an index beyond its
table, and for a port byte that names no port. The slot and bit bytes of a STRIKE or REITERATE rank's absent damper
read 0, which is the model's choice (log 23). -/
def Obligations.TableReadAnswersStoredEntry : Prop :=
  ∀ s : State, PortFree s →
    (∀ r, r < 64 → exec (.tableRead [0, byte r]) s = .next (answered s .ok (rankEntryBytes (rankAt s r))))
    ∧ (∀ n, n < 256 → exec (.tableRead [1, byte n]) s = .next (answered s .ok (stopEntryBytes (stopAt s n))))
    ∧ (∀ p i, i < 64 → exec (.tableRead [2, byte (portCode p), byte i]) s =
        .next (answered s .ok (slotEntryBytes (slotAt (portAt s p) i))))
    ∧ (∀ p i, i < 32 → exec (.tableRead [3, byte (portCode p), byte i]) s =
        .next (answered s .ok (returnEntryBytes (returnAt (portAt s p) i))))
    ∧ (∀ p, exec (.tableRead [4, byte (portCode p)]) s =
        .next (answered s .ok (portEntryBytes (portAt s p).entry)))
    ∧ (∀ l, l < 4 → exec (.tableRead [5, byte l]) s = .next (answered s .ok (linkEntryBytes (linkAt s l).entry)))
    ∧ (∀ k, k < 4 → exec (.tableRead [6, byte k]) s = .next (answered s .ok (railEntryBytes (railAt s k).entry)))
    ∧ (∀ d, d < 6 → exec (.tableRead [7, byte d]) s = .next (answered s .ok [byte (holderCode (granting s d))]))
    ∧ (∀ v c, v < 16 → c < 40 → exec (.tableRead [8, byte v, byte c]) s =
        .next (answered s .ok (stopSetBytes (combinationAt s v c))))
    ∧ (∀ n, 1 ≤ n → n < 16 → exec (.tableRead [9, byte n]) s = .next (answered s .ok (stopSetBytes (crescendoAt s n))))
    ∧ (∀ e, e < 8 → exec (.tableRead [10, byte e]) s = .next (answered s .ok (exprEntryBytes (exprAt s e))))
    ∧ (∀ w (h : w < 8), exec (.tableRead [11, byte w]) s = .next (answered s .ok (muteEntryBytes s.mutes[w])))
    ∧ (∀ r, 63 < r → r < 256 → exec (.tableRead [0, byte r]) s = .next (answered s .range []))
    ∧ (∀ params : List Byte,
        let table := byteAt params 0
        let i := byteAt params 1
        let j := byteAt params 2
        params.length ≠ (if table = 2 ∨ table = 3 ∨ table = 8 then 3 else 2) ∨ 11 < table
          ∨ (table = 0 ∧ 63 < i)
          ∨ (table = 2 ∧ ((i ≠ 1 ∧ i ≠ 2) ∨ 63 < j)) ∨ (table = 3 ∧ ((i ≠ 1 ∧ i ≠ 2) ∨ 31 < j))
          ∨ (table = 4 ∧ i ≠ 1 ∧ i ≠ 2)
          ∨ (table = 5 ∧ 3 < i) ∨ (table = 6 ∧ 3 < i) ∨ (table = 7 ∧ 5 < i)
          ∨ (table = 8 ∧ (15 < i ∨ 39 < j)) ∨ (table = 9 ∧ (i = 0 ∨ 15 < i))
          ∨ (table = 10 ∧ 7 < i) ∨ (table = 11 ∧ 7 < i) →
        exec (.tableRead params) s = .next (answered s .range []))

/-- Every entry that a write may store reads back from its own bytes as it was stored, in all twelve tables: the nine of
RANK, STOP, SLOT_MAP, RETURN_MAP, PORT, LINK, RAIL, EXPRESSION and MUTE, the holder of GRANT, and the stop set of
COMBINATION and CRESCENDO. That an absent damper's slot and bit bytes are no part of a stored RANK entry, and read back
as 0 on a STRIKE or REITERATE rank, is the model's choice (log 23). -/
def Obligations.EntriesReadBackAsStored : Prop :=
  ∀ (bs : List Byte) (i : Nat),
    (∀ e, readRankEntry bs i = some e → readRankEntry (rankEntryBytes e) 0 = some e)
    ∧ (∀ e, readStopEntry bs i = some e → readStopEntry (stopEntryBytes e) 0 = some e)
    ∧ (∀ e, readSlotEntry bs i = some e → readSlotEntry (slotEntryBytes e) 0 = some e)
    ∧ (∀ e, readReturnEntry bs i = some e → readReturnEntry (returnEntryBytes e) 0 = some e)
    ∧ (∀ e, readPortEntry bs i = some e → readPortEntry (portEntryBytes e) 0 = some e)
    ∧ (∀ e, readLinkEntry bs i = some e → readLinkEntry (linkEntryBytes e) 0 = some e)
    ∧ (∀ e, readRailEntry bs i = some e → readRailEntry (railEntryBytes e) 0 = some e)
    ∧ (∀ e, readExprEntry bs i = some e → readExprEntry (exprEntryBytes e) 0 = some e)
    ∧ (∀ w, readMuteEntry bs i = some w → readMuteEntry (muteEntryBytes w) 0 = some w)
    ∧ (∀ q, holderOfCode (byteAt bs i) = some q →
        holderOfCode (byteAt [byte (holderCode q)] 0) = some q ∧ holderCode q = byteAt bs i)
    ∧ stopSetAt (stopSetBytes (stopSetAt bs i)) 0 = stopSetAt bs i

/-- A rank write is refused by the first check it fails and then changes nothing: RANGE for its number, its kind or a
field; RANGE for pipes beyond position 767; OVERLAP for a position that another rank, a shade range or its own
pipes occupy; RANGE for hold above pull, for a period below strike and minimum off time, and in RUN for pull units
above the rail's capacity; in RUN IN_USE for a rank with a record in use or one that an effective TREMULANT stop
names while it is or becomes TREMULANT. One that passes stores its entry and all else but the rank's tremulant output
stands; in RUN that output is off. The model's readings are that a rank number above 63 is RANGE for
an UNUSED write too (log 12), which bytes of a damper are looked at (log 11), and that the slot and bit bytes of an
absent one are not kept (log 23). -/
def Obligations.RankWriteStoresOrRefuses : Prop :=
  ∀ (params : List Byte) (s : State), params.length = 18 → PortFree s → s.mode ≠ .quiescing →
    let r := byteAt params 0
    let e := rankWritten (byteAt params)
    let first := e.slot * 16 + e.bit
    let beyond := e.kind ≠ .unused ∧ 768 < first + e.count
    let overlaps := (∃ pos, Occupies e pos
        ∧ ((∃ q, q < 64 ∧ q ≠ r ∧ (rankAt s q).link = e.link ∧ Occupies (rankAt s q) pos)
          ∨ ∃ x, x < 8 ∧ (exprAt s x).link = e.link ∧ Shades (exprAt s x) pos))
      ∨ ∃ slot bit, e.damper = some (slot, bit) ∧ first ≤ slot * 16 + bit ∧ slot * 16 + bit < first + e.count
    let misfits := ((e.kind = .pipe ∨ e.kind = .held) ∧ e.pull < e.hold)
      ∨ (e.kind = .reiterate ∧ e.period < e.strikeTime + e.minOff)
      ∨ (s.mode = .run ∧ e.kind ≠ .unused ∧ e.kind ≠ .tremulant ∧ (railAt s e.rail).entry.capacity < e.pull)
    let inUse := s.mode = .run
      ∧ ((∃ i x, recordAt s i = some x ∧ x.rank = r)
        ∨ (((rankAt s r).kind = .tremulant ∨ e.kind = .tremulant)
          ∧ ∃ n, n < 256 ∧ (stopAt s n).kind = .tremulant ∧ (stopAt s n).rank = r ∧ effective s n = true))
    (63 < r ∨ ¬ RankBytesFit (byteAt params) → exec (.tableWriteRank params) s = .next (answered s .range []))
    ∧ (r ≤ 63 → RankBytesFit (byteAt params) →
        (beyond → exec (.tableWriteRank params) s = .next (answered s .range []))
        ∧ (¬ beyond → overlaps → exec (.tableWriteRank params) s = .next (answered s .overlap []))
        ∧ (¬ beyond → ¬ overlaps → misfits → exec (.tableWriteRank params) s = .next (answered s .range []))
        ∧ (¬ beyond → ¬ overlaps → ¬ misfits → inUse →
            exec (.tableWriteRank params) s = .next (answered s .inUse []))
        ∧ (¬ beyond → ¬ overlaps → ¬ misfits → ¬ inUse →
            ∃ t, exec (.tableWriteRank params) s = .next t
              ∧ t = { answered s .ok [] with ranks := put s.ranks r e, tremulants := t.tremulants }
              ∧ (∀ q, q ≠ r → t.tremulants.getLsbD q = s.tremulants.getLsbD q)
              ∧ (s.mode = .config → t.tremulants = s.tremulants)
              ∧ (s.mode = .run → t.tremulants.getLsbD r = false)))

/-- A stop write with a field out of range is refused with RANGE and changes nothing. One that passes in CONFIG stores
its entry and changes nothing else. In RUN the stop is first retired as it stood: its drawn state goes off, it leaves
both ports' drive sets, one release request takes exactly the claims that name it, and the output of the rank it named as TREMULANT is on only
while that rank is TREMULANT and another effective TREMULANT stop names it. Then the new entry is stored; and where the
stop is effective under it, a VOICE or FIXED stop makes its claim request for each held key of its division and touch,
in ascending key order, and a TREMULANT stop's rank has its output on exactly when it is TREMULANT. Every other stop's
claims stay, and while the stop is not effective no record holds a claim of it. -/
def Obligations.StopWriteRetiresTheStop : Prop :=
  ∀ (params : List Byte) (s : State), params.length = 10 → PortFree s →
    let n := byteAt params 0
    let e := stopWritten (byteAt params)
    let was := stopAt s n
    (s.mode ≠ .quiescing → ¬ StopBytesFit (byteAt params) →
        exec (.tableWriteStop params) s = .next (answered s .range []))
    ∧ (StopBytesFit (byteAt params) →
        (s.mode = .config →
            exec (.tableWriteStop params) s = .next { answered s .ok [] with stops := put s.stops n e })
        ∧ (s.mode = .run →
            ∃ u t, exec (.tableWriteStop params) s = .next t
              ∧ u = { answered s .ok [] with
                  stops := put s.stops n e, drawn := s.drawn &&& ~~~ BitVec.twoPow 256 n
                  portA := u.portA, portB := u.portB, table := u.table, rails := u.rails, counters := u.counters
                  tremulants := u.tremulants }
              ∧ (∀ p, portAt u p = { portAt s p with
                  recallSlot := { (portAt s p).recallSlot with
                    driveOn := (portAt s p).recallSlot.driveOn &&& ~~~ BitVec.twoPow 256 n
                    driveOff := (portAt s p).recallSlot.driveOff &&& ~~~ BitVec.twoPow 256 n } })
              ∧ ReleasedBy (fun _ c => c.stop == n) s u
              ∧ (∀ c, HoldsClaim u c ↔ HoldsClaim s c ∧ c.stop ≠ n)
              ∧ (was.kind ≠ .tremulant → u.tremulants = s.tremulants)
              ∧ (was.kind = .tremulant →
                  (∀ q, q ≠ was.rank → u.tremulants.getLsbD q = s.tremulants.getLsbD q)
                  ∧ (was.rank < 64 → (u.tremulants.getLsbD was.rank = true ↔
                      (rankAt s was.rank).kind = .tremulant
                        ∧ ∃ m, m < 256 ∧ m ≠ n ∧ (stopAt s m).kind = .tremulant ∧ (stopAt s m).rank = was.rank
                          ∧ effective s m = true)))
              ∧ (effective u n = false ∨ e.kind = .unused → t = u)
              ∧ (effective u n = true → e.kind = .tremulant →
                  t = { u with tremulants := t.tremulants }
                  ∧ (∀ q, q ≠ e.rank → t.tremulants.getLsbD q = u.tremulants.getLsbD q)
                  ∧ (t.tremulants.getLsbD e.rank = true ↔ (rankAt s e.rank).kind = .tremulant))
              ∧ (effective u n = true → e.kind = .voice ∨ e.kind = .fixed →
                  (granting s e.division = none → t = u)
                  ∧ ∀ (p : PortId) (ks : List Nat), granting s e.division = some p → ks.Pairwise (· < ·) →
                    (∀ k, k ∈ ks ↔ k < (if e.division = 0 ∨ e.division = 5 then 32 else 61)
                      ∧ KeyReadsMade (portAt s p) e.division e.touch k) →
                    t = ks.foldl (fun v k => asksClaim u p e.division e.touch v k n) u)
              ∧ (∀ c, c.stop ≠ n → (HoldsClaim t c ↔ HoldsClaim s c))
              ∧ t.response = some { status := .ok, payload := [] }
              ∧ t.stops = put s.stops n e
              ∧ t.drawn = s.drawn &&& ~~~ BitVec.twoPow 256 n
              ∧ (∀ p, (driveSet (portAt t p)).getLsbD n = false)
              ∧ (effective t n = false → ∀ c, HoldsClaim t c → c.stop ≠ n)
              ∧ t.combination = s.combination ∧ t.crescendo = s.crescendo ∧ t.grants = s.grants ∧ t.mode = s.mode))

/-- The five tables of CONFIG alone: a write that passes stores its entry whole and changes nothing else, and one that
names no port, no position, no link or no rail of the table, or has a field out of range, is refused with RANGE and
changes nothing. -/
def Obligations.ConfigTablesStoreEntries : Prop :=
  ∀ (params : List Byte) (s : State), PortFree s → s.mode = .config →
    let b := byteAt params
    (params.length = 7 →
        (∀ p, b 0 = portCode p → SlotBytesFit b →
            exec (.tableWriteSlotMap params) s = .next (setPort (answered s .ok []) p
              { portAt s p with slotMap := put (portAt s p).slotMap (b 1) (slotWritten b) }))
        ∧ ((b 0 ≠ 1 ∧ b 0 ≠ 2) ∨ ¬ SlotBytesFit b →
            exec (.tableWriteSlotMap params) s = .next (answered s .range [])))
    ∧ (params.length = 4 →
        (∀ p, b 0 = portCode p → b 1 ≤ 31 → b 2 ≤ 3 →
            exec (.tableWriteReturnMap params) s = .next (setPort (answered s .ok []) p
              { portAt s p with
                returnMap := put (portAt s p).returnMap (b 1)
                  { kind := (returnKindOfCode (b 2)).getD .unused
                    firstStop := if b 2 = 1 ∨ b 2 = 2 then b 3 else 0 } }))
        ∧ ((b 0 ≠ 1 ∧ b 0 ≠ 2) ∨ 31 < b 1 ∨ 3 < b 2 →
            exec (.tableWriteReturnMap params) s = .next (answered s .range [])))
    ∧ (params.length = 8 →
        (∀ p, b 0 = portCode p → PortBytesFit b →
            exec (.tableWritePort params) s = .next (setPort (answered s .ok []) p
              { portAt s p with entry := portWritten b }))
        ∧ ((b 0 ≠ 1 ∧ b 0 ≠ 2) ∨ ¬ PortBytesFit b →
            exec (.tableWritePort params) s = .next (answered s .range [])))
    ∧ (params.length = 9 →
        (b 0 ≤ 3 → LinkBytesFit b →
            exec (.tableWriteLink params) s =
              .next { answered s .ok [] with
                links := put s.links (b 0) { linkAt s (b 0) with entry := linkWritten b } })
        ∧ (3 < b 0 ∨ ¬ LinkBytesFit b → exec (.tableWriteLink params) s = .next (answered s .range [])))
    ∧ (params.length = 8 →
        (b 0 ≤ 3 → RailBytesFit b →
            exec (.tableWriteRail params) s =
              .next { answered s .ok [] with
                rails := put s.rails (b 0) { railAt s (b 0) with entry := railWritten b } })
        ∧ (3 < b 0 ∨ ¬ RailBytesFit b → exec (.tableWriteRail params) s = .next (answered s .range [])))

/-- A grant write stores the holder; a division above 5 or a holder that is none of NONE, A and B is RANGE and changes
nothing. In CONFIG, and where the holder does not change, nothing else follows. Where it changes in RUN, the old
holder's claims of the division go in one release request, and no others; the division's stops leave the old holder's drive set, whose timer and
pending piston stand; and in a division other than 5 each stop is drawn as the new holder's tabs show it. The effective
set is then changed without claims, and the new holder's held keys of the division are played, ascending, FIRST before
SECOND. -/
def Obligations.GrantWriteChangesHolder : Prop :=
  ∀ (params : List Byte) (s : State), params.length = 2 → PortFree s →
    let d := byteAt params 0
    (s.mode ≠ .quiescing → 5 < d ∨ 2 < byteAt params 1 →
        exec (.tableWriteGrant params) s = .next (answered s .range []))
    ∧ ∀ q : Option PortId, d ≤ 5 → byteAt params 1 = holderCode q →
      (s.mode = .config →
          exec (.tableWriteGrant params) s = .next { answered s .ok [] with grants := put s.grants d q })
      ∧ (s.mode = .run → granting s d = q →
          exec (.tableWriteGrant params) s = .next (answered s .ok []))
      ∧ (s.mode = .run → granting s d ≠ q →
          ∃ u t, exec (.tableWriteGrant params) s = .next t
            ∧ u = { answered s .ok [] with
                grants := put s.grants d q, drawn := u.drawn, portA := u.portA, portB := u.portB, table := u.table
                rails := u.rails, counters := u.counters }
            ∧ ReleasedBy (fun _ c => granting s d == some c.port && c.division == d) s u
            ∧ (∀ c, HoldsClaim u c ↔ HoldsClaim s c ∧ ¬ (granting s d = some c.port ∧ c.division = d))
            ∧ (∀ p, granting s d ≠ some p → portAt u p = portAt s p)
            ∧ (∀ p, granting s d = some p →
                portAt u p = { portAt s p with
                  recallSlot := { (portAt s p).recallSlot with
                    driveOn := (portAt u p).recallSlot.driveOn, driveOff := (portAt u p).recallSlot.driveOff } }
                ∧ ∀ n, n < 256 →
                  let stays := (stopAt s n).kind == .unused || (stopAt s n).division != d
                  (portAt u p).recallSlot.driveOn.getLsbD n = ((portAt s p).recallSlot.driveOn.getLsbD n && stays)
                  ∧ (portAt u p).recallSlot.driveOff.getLsbD n = ((portAt s p).recallSlot.driveOff.getLsbD n && stays))
            ∧ (q = none → t = changeEffective false (effectiveSet s) u)
            ∧ (∀ (p : PortId) (xs : List Nat), q = some p → xs.Pairwise (· < ·) →
                (∀ x, x ∈ xs ↔ x / 2 < (if d = 0 ∨ d = 5 then 32 else 61)
                  ∧ KeyReadsMade (portAt s p) d (if x % 2 = 0 then .first else .second) (x / 2)) →
                t = xs.foldl (fun v x => keyMake v p d (if x % 2 = 0 then .first else .second) (x / 2))
                  (changeEffective false (effectiveSet s) u))
            ∧ t.response = some { status := .ok, payload := [] }
            ∧ t.grants = put s.grants d q
            ∧ (∀ p, granting s d = some p → ∀ c, HoldsClaim t c → ¬ (c.port = p ∧ c.division = d))
            ∧ t.drawn = u.drawn
            ∧ (d ≠ 5 → ∀ n, n < 256 → (stopAt s n).kind ≠ .unused → (stopAt s n).division = d →
                (t.drawn.getLsbD n = true ↔ ∃ p, q = some p ∧ TabReadsMade (portAt s p) n))
            ∧ (∀ n, (stopAt s n).division ≠ d ∨ d = 5 → t.drawn.getLsbD n = s.drawn.getLsbD n)
            ∧ t.stops = s.stops ∧ t.ranks = s.ranks ∧ t.combination = s.combination ∧ t.mode = s.mode)

/-- A combination write replaces the record by the filtered set and changes nothing else: stops UNUSED or of
division 5 are dropped, and from a divisional record the stops of any other division. A mute window write stores
the window whole in CONFIG and in RUN and changes nothing else; a window number above 7 or a value out of range
changes nothing. -/
def Obligations.CombinationAndMuteWritesStore : Prop :=
  (∀ (params : List Byte) (s : State), params.length = 34 → PortFree s → s.mode ≠ .quiescing →
      (15 < byteAt params 0 ∨ 39 < byteAt params 1 →
          exec (.tableWriteCombination params) s = .next (answered s .range []))
      ∧ (byteAt params 0 ≤ 15 → byteAt params 1 ≤ 39 →
          ∃ x : StopSet,
            exec (.tableWriteCombination params) s =
              .next { answered s .ok [] with
                combination := put s.combination (40 * byteAt params 0 + byteAt params 1) x }
            ∧ ∀ n, n < 256 → x.getLsbD n = ((stopSetAt params 2).getLsbD n && (stopAt s n).kind != .unused
                && (stopAt s n).division != 5
                && (decide (byteAt params 1 ≤ 9) || (stopAt s n).division == (byteAt params 1 - 10) / 6))))
    ∧ (∀ (params : List Byte) (s : State), params.length = 6 → PortFree s → s.mode ≠ .quiescing →
        (7 < byteAt params 0 ∨ 4095 < wordAt params 1 ∨ 4095 < wordAt params 3 ∨ 1 < byteAt params 5 →
            exec (.tableWriteMute params) s = .next (answered s .range []))
        ∧ (byteAt params 0 ≤ 7 → wordAt params 1 ≤ 4095 → wordAt params 3 ≤ 4095 → byteAt params 5 ≤ 1 →
            exec (.tableWriteMute params) s =
              .next { answered s .ok [] with
                mutes := put s.mutes (byteAt params 0)
                  { base := BitVec.ofNat 12 (wordAt params 1), mask := BitVec.ofNat 12 (wordAt params 3)
                    enabled := byteAt params 5 == 1 } }))

/-- A crescendo stage record write stores the filtered set. In CONFIG, and in RUN for a record other than the current
stage's, nothing else changes; for the current stage's record in RUN the write is the one change of the effective set
from what it was, its releases and then its claims; and a record number of 0 or above 15 is RANGE. -/
def Obligations.CrescendoWriteStoresFilteredSet : Prop :=
  ∀ (params : List Byte) (s : State), params.length = 33 → PortFree s →
    (s.mode ≠ .quiescing → byteAt params 0 = 0 ∨ 15 < byteAt params 0 →
        exec (.tableWriteCrescendo params) s = .next (answered s .range []))
    ∧ ∀ n, byteAt params 0 = n → 1 ≤ n → n ≤ 15 →
        let x := stopSetAt params 1 &&& bitsOf 256 (fun k => (stopAt s k).kind != .unused
          && (stopAt s k).division != 5) 256
        let stored := { answered s .ok [] with crescendo := put s.crescendo (n - 1) x }
        (s.mode = .config → exec (.tableWriteCrescendo params) s = .next stored)
        ∧ (s.mode = .run → crescendoStage s ≠ n → exec (.tableWriteCrescendo params) s = .next stored)
        ∧ (s.mode = .run → crescendoStage s = n →
            exec (.tableWriteCrescendo params) s = .next (changeEffective true (effectiveSet s) stored)
            ∧ ∃ t, exec (.tableWriteCrescendo params) s = .next t
              ∧ t.response = some { status := .ok, payload := [] }
              ∧ t.crescendo = stored.crescendo
              ∧ effectiveSet t = effectiveSet stored
              ∧ t.drawn = s.drawn ∧ t.grants = s.grants ∧ t.runs = s.runs ∧ t.mode = s.mode)

/-- An expression write is refused by the first check it fails and then changes nothing: RANGE for its number, a field,
a shade range beyond position 767, or an enabled entry whose source slot is not mapped EXPRESSION; OVERLAP for a shade
position that a rank or another entry's shade range occupies; IN_USE for a second enabled CRESCENDO entry. One that
passes stores the entry with its run state cleared, and in CONFIG changes nothing else. In RUN the write of the crescendo
entry at a stage above 0 is first one change of the effective set, as its stage goes to 0, which leaves only the drawn
stops and the FIXED stops of division 5 effective; any other write in RUN changes nothing else either. -/
def Obligations.ExpressionWriteClearsRunState : Prop :=
  ∀ (params : List Byte) (s : State), params.length = 18 → PortFree s → s.mode ≠ .quiescing →
    let n := byteAt params 0
    let e := exprWritten (byteAt params)
    let beyond := e.target = .shade ∧ 768 < e.outSlot * 16 + e.outBit + e.stages
    let unmapped := e.enabled = true ∧ ∀ p, e.port = some p → (slotAt (portAt s p) e.slot).kind ≠ .expression
    let overlaps := ∃ pos, Shades e pos
      ∧ ((∃ q, q < 64 ∧ (rankAt s q).link = e.link ∧ Occupies (rankAt s q) pos)
        ∨ ∃ x, x < 8 ∧ x ≠ n ∧ (exprAt s x).link = e.link ∧ Shades (exprAt s x) pos)
    let inUse := e.enabled = true ∧ e.target = .crescendo
      ∧ ∃ x, x < 8 ∧ x ≠ n ∧ (exprAt s x).enabled = true ∧ (exprAt s x).target = .crescendo
    (7 < n ∨ ¬ ExprBytesFit (byteAt params) → exec (.tableWriteExpression params) s = .next (answered s .range []))
    ∧ (n ≤ 7 → ExprBytesFit (byteAt params) →
        (beyond ∨ unmapped → exec (.tableWriteExpression params) s = .next (answered s .range []))
        ∧ (¬ beyond → ¬ unmapped → overlaps →
            exec (.tableWriteExpression params) s = .next (answered s .overlap []))
        ∧ (¬ beyond → ¬ unmapped → ¬ overlaps → inUse →
            exec (.tableWriteExpression params) s = .next (answered s .inUse []))
        ∧ (¬ beyond → ¬ unmapped → ¬ overlaps → ¬ inUse →
            (s.mode = .config →
              exec (.tableWriteExpression params) s =
                .next { answered s .ok [] with
                  expression := put s.expression n e, runs := put s.runs n ExprRun.clear })
            ∧ (s.mode = .run →
              ∃ t, exec (.tableWriteExpression params) s = .next t
                ∧ t.response = some { status := .ok, payload := [] }
                ∧ t.expression = put s.expression n e
                ∧ t.runs = put s.runs n ExprRun.clear
                ∧ t.drawn = s.drawn ∧ t.grants = s.grants ∧ t.crescendo = s.crescendo ∧ t.mode = s.mode
                ∧ (let was := exprAt s n
                  (was.enabled = true → was.target = .crescendo → (runAt s n).stage ≠ 0 →
                    t = { changeEffective true (effectiveSet s)
                          { answered s .ok [] with runs := put s.runs n { runAt s n with stage := 0 } } with
                        expression := put s.expression n e, runs := put s.runs n ExprRun.clear }
                    ∧ (OneCrescendoEntry s → ∀ m, m < 256 → (effective t m = true ↔
                        s.drawn.getLsbD m = true ∨ ((stopAt s m).kind = .fixed ∧ (stopAt s m).division = 5))))
                  ∧ (was.enabled = false ∨ was.target ≠ .crescendo ∨ (runAt s n).stage = 0 →
                    t = { answered s .ok [] with
                        expression := put s.expression n e, runs := put s.runs n ExprRun.clear })))))

/-! ### The modes -/

/-- START refuses the first offence with CONFIG_ERROR naming its table and index, and changes nothing: an unset rail
first, then a rank with records above its rail's capacity, then an enabled PERIODIC link shorter than its operation.
START with no offence puts the relay in RUN: the drawn set off, every run state cleared, each enabled port SEEKING
with its receiver waiting, each enabled link UP with miss count 0 and its first frame sending an empty image,
and the tables, grants, levels, dirty list, fault set, attention and counters kept. -/
def Obligations.StartRefusesOrPutsTheRelayInRun : Prop :=
  ∀ s : State, PortFree s → s.mode = .config →
    let badRail (k : Nat) : Prop := (railAt s k).entry = { capacity := 0, high := 0, low := 0, deferLimit := 0 }
    let badRank (r : Nat) : Prop := (rankAt s r).kind ≠ .unused ∧ (rankAt s r).kind ≠ .tremulant
      ∧ (railAt s (rankAt s r).rail).entry.capacity < (rankAt s r).pull
    let badLink (l : Nat) : Prop := (linkAt s l).entry.enabled = true ∧ (linkAt s l).entry.mode = .periodic
      ∧ (linkAt s l).entry.period
          * (if (linkAt s l).entry.rate = 0 then 250 else if (linkAt s l).entry.rate = 1 then 500 else 1000)
        < 2 * ((linkAt s l).entry.slots + 1) * 16
    (∀ k, k < 4 → badRail k → (∀ j, j < k → ¬ badRail j) →
        exec (.start []) s = .next (answered s .configError [6, byte k]))
    ∧ ((∀ k, k < 4 → ¬ badRail k) → ∀ r, r < 64 → badRank r → (∀ q, q < r → ¬ badRank q) →
        exec (.start []) s = .next (answered s .configError [0, byte r]))
    ∧ ((∀ k, k < 4 → ¬ badRail k) → (∀ r, r < 64 → ¬ badRank r) → ∀ l, l < 4 → badLink l → (∀ m, m < l → ¬ badLink m) →
        exec (.start []) s = .next (answered s .configError [5, byte l]))
    ∧ ((∀ k, k < 4 → ¬ badRail k) → (∀ r, r < 64 → ¬ badRank r) → (∀ l, l < 4 → ¬ badLink l) → tableEmpty s = true →
        ∃ t, exec (.start []) s = .next t
          ∧ t.response = some { status := .ok, payload := [] }
          ∧ t.mode = .run ∧ t.drawn = 0 ∧ (∀ e, runAt t e = ExprRun.clear)
          ∧ (∀ p, (portAt s p).entry.enabled = true →
              (portAt t p).state = .seeking ∧ (portAt t p).receiver = .waiting ∧ (portAt t p).good = 0
                ∧ (portAt t p).framing = .unset)
          ∧ (∀ p, (portAt s p).entry.enabled = false → (portAt t p).state = .off ∧ (portAt t p).receiver = .idle)
          ∧ (∀ p, (portAt t p).level = (portAt s p).level ∧ (portAt t p).recallSlot = (portAt s p).recallSlot)
          ∧ (∀ l, l < 4 → (linkAt s l).entry.enabled = true →
              (linkAt t l).state = .up ∧ (linkAt t l).miss = 0 ∧ (linkAt t l).flight = .sending
                ∧ (linkAt t l).latch = 0)
          ∧ (∀ l, l < 4 → (linkAt s l).entry.enabled = false → linkAt t l = linkAt s l)
          ∧ t.table = s.table ∧ t.rails = s.rails ∧ t.ranks = s.ranks ∧ t.stops = s.stops ∧ t.grants = s.grants
          ∧ t.combination = s.combination ∧ t.crescendo = s.crescendo ∧ t.expression = s.expression ∧ t.mutes = s.mutes
          ∧ (∀ p, (portAt t p).entry = (portAt s p).entry ∧ (portAt t p).slotMap = (portAt s p).slotMap
              ∧ (portAt t p).returnMap = (portAt s p).returnMap)
          ∧ (∀ l, l < 4 → (linkAt t l).entry = (linkAt s l).entry)
          ∧ t.dirty = s.dirty ∧ t.dirtyOverflow = s.dirtyOverflow ∧ t.faults = s.faults ∧ t.counters = s.counters
          ∧ t.pendingCauses = s.pendingCauses ∧ t.enabledCauses = s.enabledCauses ∧ t.details = s.details
          ∧ t.firstCause = s.firstCause)

/-- STOP leaves RUN whole: both ports OFF with empty images and nothing received or returned, both recall slots idle, no
claim left in the table after one release request of them all, the tremulants off, and no shade demanded; the drawn
set, the grants, the run states, the levels, the dirty list, the fault set, the mute windows and the counters of the
ports are kept. The mode becomes QUIESCING, and the links and the attention state stand, unless that release leaves the
table empty and no enabled link has yet to serve the quiesce, as when no link is enabled: the mode is then CONFIG,
every link IDLE with miss count 0, and QUIESCED raised with no detail. -/
def Obligations.StopLeavesRun : Prop :=
  ∀ s : State, PortFree s → s.mode = .run →
    ∃ t, exec (.stop []) s = .next t
      ∧ t.response = some { status := .ok, payload := [] }
      ∧ (t.mode = .quiescing ∨ t.mode = .config)
      ∧ (let done := tableEmpty t = true ∧ ∀ l, l < 4 → (linkAt s l).entry.enabled = false ∨ (linkAt s l).served = true
        (¬ done → t.mode = .quiescing ∧ t.links = s.links ∧ t.pendingCauses = s.pendingCauses ∧ t.details = s.details
            ∧ t.firstCause = s.firstCause)
        ∧ (done → t.mode = .config ∧ t.pendingCauses.getLsbD 11 = true ∧ look t.details 11 .none = .none
            ∧ ∀ l, l < 4 → linkAt t l = Link.idle (linkAt s l).entry))
      ∧ ReleasedBy (fun _ _ => true) s t
      ∧ (∀ p, (portAt t p).state = .off ∧ (portAt t p).receiver = .idle
          ∧ (portAt t p).image = Vector.replicate 64 0 ∧ (portAt t p).recallSlot = RecallSlot.idle
          ∧ (portAt t p).good = 0 ∧ (portAt t p).watchdog = none ∧ (portAt t p).returnFrame = none
          ∧ (portAt t p).framing = .unset ∧ (portAt t p).level = (portAt s p).level)
      ∧ (∀ c, ¬ HoldsClaim t c)
      ∧ t.tremulants = 0 ∧ (∀ l e, shadeDemand t l e = 0)
      ∧ t.drawn = s.drawn ∧ t.grants = s.grants ∧ t.runs = s.runs ∧ t.dirty = s.dirty ∧ t.faults = s.faults
      ∧ t.mutes = s.mutes
      ∧ (∀ q, counterAt t (.validFrames q) = counterAt s (.validFrames q)
          ∧ counterAt t (.earlyStarts q) = counterAt s (.earlyStarts q)
          ∧ counterAt t (.checkFailures q) = counterAt s (.checkFailures q)
          ∧ counterAt t (.ungranted q) = counterAt s (.ungranted q))

/-- RESTART keeps the tables R167 names and drops everything else at once, in every mode: of a port its image, debounce
and good-frame counts, receiver, watchdog and return frame too, of a link its timers and its waiting frame. While a
response waits it is discarded like any other request. -/
def Obligations.RestartKeepsTablesAndDropsTheRest : Prop :=
  ∀ s : State,
    (s.response.isSome = true →
        ∃ t, exec (.restart []) s = .next t ∧ t.mode = s.mode ∧ t.table = s.table ∧ t.response = s.response)
    ∧ (PortFree s →
        ∃ t, exec (.restart []) s = .next t
          ∧ t.mode = .config ∧ t.response = some { status := .ok, payload := [] }
          ∧ t.ranks = s.ranks ∧ t.stops = s.stops ∧ t.expression = s.expression ∧ t.crescendo = s.crescendo
          ∧ t.combination = s.combination ∧ t.grants = s.grants ∧ t.mutes = s.mutes
          ∧ t.enabledCauses = s.enabledCauses
          ∧ (∀ p, portAt t p = { ConsolePort.reset with
              entry := (portAt s p).entry, slotMap := (portAt s p).slotMap, returnMap := (portAt s p).returnMap })
          ∧ (∀ l, l < 4 → (linkAt t l).entry = (linkAt s l).entry)
          ∧ (∀ k, k < 4 → (railAt t k).entry = (railAt s k).entry)
          ∧ tableEmpty t = true
          ∧ (∀ k, k < 4 → (railAt t k).draw = 0 ∧ (railAt t k).strained = false ∧ (railAt t k).deferred = [])
          ∧ t.drawn = 0 ∧ t.tremulants = 0 ∧ (∀ e, runAt t e = ExprRun.clear)
          ∧ (∀ p, (portAt t p).level = 0 ∧ (portAt t p).recallSlot = RecallSlot.idle ∧ (portAt t p).state = .off
              ∧ (portAt t p).receiver = .idle ∧ (portAt t p).image = Vector.replicate 64 0
              ∧ (portAt t p).debounce = Vector.replicate 1024 0 ∧ (portAt t p).good = 0 ∧ (portAt t p).watchdog = none
              ∧ (portAt t p).returnFrame = none ∧ (portAt t p).framing = .unset)
          ∧ t.dirty = [] ∧ t.dirtyOverflow = false
          ∧ (∀ l, l < 4 → (linkAt t l).state = .idle ∧ (linkAt t l).miss = 0 ∧ (linkAt t l).flight = .free
              ∧ (linkAt t l).period = none ∧ (linkAt t l).keepAlive = none ∧ (linkAt t l).startWaits = false
              ∧ (linkAt t l).serving = false ∧ (linkAt t l).served = false)
          ∧ t.faults = [] ∧ t.pendingCauses = 0 ∧ (∀ c, look t.details (Cause.bit c) .none = .none)
          ∧ t.firstCause = none ∧ (∀ c, counterAt t c = 0) ∧ t.discardTally = 0)

/-- The power-on reset: at the release of RESET the relay is in CONFIG with every table as power-on leaves it, no
response waiting, the attention state clear with every enable on, and every counter 0. While the line is asserted no
command but the line's own changes anything: nothing is taken on the console links, sent on the chamber links, or
judged or counted at the service port. The state in which the relay stands while the line is asserted is the model's
choice (log 16). -/
def Obligations.PowerOnResetClearsTheRelay : Prop :=
  (∀ (s : State) (line : ResetLine), ∃ t, exec (.powerOnReset line) s = .next t
    ∧ t.resetLine = line ∧ t.mode = .config
    ∧ (∀ r, (rankAt t r).kind = .unused) ∧ (∀ n, (stopAt t n).kind = .unused)
    ∧ (∀ p i, (slotAt (portAt t p) i).kind = .unused) ∧ (∀ p i, (returnAt (portAt t p) i).kind = .unused)
    ∧ (∀ p, (portAt t p).entry.enabled = false) ∧ (∀ l, (linkAt t l).entry.enabled = false)
    ∧ (∀ k, (railAt t k).entry = { capacity := 0, high := 0, low := 0, deferLimit := 0 })
    ∧ (∀ d, granting t d = none) ∧ (∀ e, exprAt t e = ExprEntry.unset)
    ∧ (∀ v c, combinationAt t v c = 0) ∧ (∀ n, crescendoAt t n = 0)
    ∧ (∀ w, w ∈ t.mutes.toList → w.enabled = false)
    ∧ t.response = none ∧ responseReady t = false ∧ t.discardTally = 0
    ∧ t.pendingCauses = 0 ∧ (∀ c, look t.details (Cause.bit c) .none = .none) ∧ t.firstCause = none
    ∧ (∀ c, counterAt t c = 0) ∧ (∀ c, t.enabledCauses.getLsbD (Cause.bit c) = true) ∧ attentionLine t = false
    ∧ tableEmpty t = true ∧ t.drawn = 0 ∧ t.faults = [])
  ∧ (∀ s : State, exec (.powerOnReset .released) s =
      .next { State.reset with pending := s.pending, choices := s.choices })
  ∧ (∀ (s t : State) (c : Instr), exec (.powerOnReset .asserted) s = .next t → (∀ line, c ≠ .powerOnReset line) →
      exec c t = .next t ∧ ∀ i, dataOutByte t i = 0xFF#8)

/-! ### The host's requests -/

/-- A release request of each pattern is taken whole: its visits, then the allocator's work. A record that loses its
last claim is freed from WAITING and STRUCK; enters SETTLING from PULLING, SPEAKING, RESTING and LOCKED with charge 0,
or is freed where the minimum off time is 0; and runs its pulse or its settling on with an empty list. One that keeps a
claim keeps all else, unless it was waiting or paused and the work after the release reaches it. After ALL_CLEAR no
claim is left and its answer counts those removed; after SILENCE the named record has taken its last release, every
other record keeps its claims in their order, and the answer gives the record's index and the number removed; with
an empty list nothing changes. Neither touches the drawn set, the tremulants, the grants or the ports. SILENCE of a
rank above 63 or a pipe above 96 is RANGE, and of a pipe with no record NOT_FOUND. -/
def Obligations.ClearAndSilenceRemoveClaims : Prop :=
  (∀ (s : State) (pat : Pattern) (hit : Nat → Claim → Bool),
      (∀ i c, hit i c = match pat with
        | .key p d touch k => c.port == p && c.division == d && c.touch == touch && c.key == k
        | .stop n => c.stop == n
        | .port p => c.port == p
        | .division p d => c.port == p && c.division == d
        | .all => true
        | .record j => i == j) →
      let t := releaseRequest s pat
      ReleasedBy hit s t ∧ t = { s with table := t.table, rails := t.rails, counters := t.counters })
  ∧ (∀ (hit : Nat → Claim → Bool) (s t : State), DeferredSound s → PausedSound s → ReleasedBy hit s t →
      ∀ i, match recordAt s i with
        | none => recordAt t i = none
        | some r =>
          if losesLast hit i r then
            recordAt t i = (match r.state with
              | .waiting => none
              | .struck => none
              | .striking => some { r with claims := [], cycle := none, cycleHeld := false }
              | .settling => some { r with claims := [] }
              | _ =>
                if (rankAt s r.rank).minOff = 0 then none
                else
                  some { r with
                    claims := [], state := .settling, charge := 0, phase := some (rankAt s r.rank).minOff
                    cycle := none, cycleHeld := false, protection := none, paused := false })
          else if r.state ≠ .waiting ∧ r.paused = false then
            recordAt t i = some { r with claims := r.claims.filter fun c => !hit i c }
          else ∃ x, recordAt t i = some x ∧ x.rank = r.rank ∧ x.pipe = r.pipe ∧ x.kind = r.kind
            ∧ x.claims = r.claims.filter fun c => !hit i c)
  ∧ ∀ s : State, PortFree s → s.mode = .run →
    (∃ t, exec (.allClear []) s = .next t
        ∧ ReleasedBy (fun _ _ => true) s t
        ∧ (∀ c, ¬ HoldsClaim t c)
        ∧ t.response = some (okWith (bytes2 (((List.range 448).map fun i =>
            match recordAt s i with
            | none => 0
            | some r => r.claims.length).sum)))
        ∧ t.drawn = s.drawn ∧ t.tremulants = s.tremulants ∧ t.grants = s.grants ∧ t.portA = s.portA
        ∧ t.portB = s.portB ∧ t.runs = s.runs)
    ∧ (∀ rank pipe i r, rank ≤ 63 → pipe ≤ 96 → findRecord s rank pipe = some i → recordAt s i = some r →
        ∃ t, exec (.silence [byte rank, byte pipe]) s = .next t
          ∧ t.response = some { status := .ok, payload := bytes2 i ++ [byte r.claims.length] }
          ∧ ReleasedBy (fun j _ => j == i) s t
          ∧ (r.claims = [] → t = answered s .ok (bytes2 i ++ [0]))
          ∧ (DeferredSound s → PausedSound s →
              recordAt t i = (if r.claims = [] then some r else afterLastRelease s r)
              ∧ (r.state = .waiting → r.claims ≠ [] → ∀ k, k < 4 → i ∉ (railAt t k).deferred)
              ∧ ∀ j x, j ≠ i → recordAt s j = some x → x.state ≠ .waiting → x.paused = false →
                  recordAt t j = some x)
          ∧ (∀ x, recordAt t i = some x → x.claims = [])
          ∧ (∀ j, j ≠ i → (recordAt t j).map Record.claims = (recordAt s j).map Record.claims)
          ∧ t.drawn = s.drawn ∧ t.tremulants = s.tremulants ∧ t.grants = s.grants ∧ t.portA = s.portA
          ∧ t.portB = s.portB ∧ t.runs = s.runs)
    ∧ (∀ rank pipe, rank ≤ 63 → pipe ≤ 96 → findRecord s rank pipe = none →
        exec (.silence [byte rank, byte pipe]) s = .next (answered s .notFound []))
    ∧ (∀ rank pipe, rank < 256 → pipe < 256 → 63 < rank ∨ 96 < pipe →
        exec (.silence [byte rank, byte pipe]) s = .next (answered s .range []))

/-- LOOKUP answers the record in use for the rank and pipe, NEXT_RECORD the first record in use from the index upward,
with the record's bytes as R180 lays them out; both NOT_FOUND when there is none and RANGE beyond rank 63, pipe 96 and
index 447, and neither changes anything else. -/
def Obligations.RecordsAreFoundAndReturnedWhole : Prop :=
  ∀ s : State, PortFree s →
    let recordOf (i : Nat) (r : Record) : List Byte :=
      bytes2 i ++ [byte r.rank, byte r.pipe, byte (recordKindCode r.kind), byte (recordStateCode r.state),
          byte r.claims.length]
        ++ r.claims.flatMap (fun c => [byte (portCode c.port), byte c.division, byte (touchCode c.touch), byte c.key,
          byte c.stop])
        ++ [byte r.charge] ++ timerBytes r.phase ++ timerBytes r.cycle ++ timerBytes r.protection
        ++ [byte (flagCode r.restrike + 2 * flagCode r.overdue + 4 * flagCode r.paused), byte r.strikeCount]
    (∀ rank pipe i r, rank ≤ 63 → pipe ≤ 96 → recordAt s i = some r → r.rank = rank → r.pipe = pipe →
        OneRecordPerPipe s →
        exec (.lookup [byte rank, byte pipe]) s = .next (answered s .ok (recordOf i r)))
    ∧ (∀ rank pipe, rank ≤ 63 → pipe ≤ 96 →
        (∀ i r, recordAt s i = some r → ¬ (r.rank = rank ∧ r.pipe = pipe)) →
        exec (.lookup [byte rank, byte pipe]) s = .next (answered s .notFound []))
    ∧ (∀ j i r, j ≤ i → recordAt s i = some r → (∀ k, j ≤ k → k < i → recordAt s k = none) →
        exec (.nextRecord (bytes2 j)) s = .next (answered s .ok (recordOf i r)))
    ∧ (∀ j, j ≤ 447 → (∀ k, j ≤ k → recordAt s k = none) →
        exec (.nextRecord (bytes2 j)) s = .next (answered s .notFound []))
    ∧ (∀ rank pipe, rank < 256 → pipe < 256 → 63 < rank ∨ 96 < pipe →
        exec (.lookup [byte rank, byte pipe]) s = .next (answered s .range []))
    ∧ (∀ j, 447 < j → j < 65536 → exec (.nextRecord (bytes2 j)) s = .next (answered s .range []))

/-- SET_LEVEL sets the named port's level and touches nothing else; a port that names none or is not enabled, and a
level above 15, are answered RANGE. -/
def Obligations.SetLevelSetsThePortLevel : Prop :=
  ∀ (s : State) (code level : Nat), PortFree s → code < 256 → level < 256 →
    (s.mode ≠ .run → exec (.setLevel [byte code, byte level]) s = .next (answered s .mode []))
    ∧ (s.mode = .run →
        (∀ p, portOfCode code = some p → (portAt s p).entry.enabled = true → level ≤ 15 →
            exec (.setLevel [byte code, byte level]) s =
              .next (setPort (answered s .ok []) p { portAt s p with level := level }))
        ∧ (portOfCode code = none ∨ (∃ p, portOfCode code = some p ∧ (portAt s p).entry.enabled = false)
              ∨ 15 < level →
            exec (.setLevel [byte code, byte level]) s = .next (answered s .range [])))

/-- RECALL acts at a named, enabled port, whatever its state; any other port byte, a port that is not enabled and a code
above 63 are RANGE. The held scope of a combination or cancel code is the divisions of its scope that the port holds.
With no scope held it is counted as ungranted; with a recall in progress the code becomes pending; otherwise the drawn
states of the held scope come from the record, which is one change of the effective set, the drive set is then the stops
that changed, and the drive timer starts. In each case it is what a recall press of the code does. Codes 47 and 48 move
the port's level up and down within 0 and 15, and 40 and 49 to 63 do nothing. -/
def Obligations.RecallActsAsAPiston : Prop :=
  ∀ (s : State), PortFree s → s.mode = .run →
    (∀ (a code : Nat), a < 256 → code < 256 →
        63 < code ∨ (∀ p, a = portCode p → (portAt s p).entry.enabled = false) →
        exec (.recallPiston [byte a, byte code]) s = .next (answered s .range []))
    ∧ ∀ (p : PortId), (portAt s p).entry.enabled = true →
      (∀ code, code = 40 ∨ (49 ≤ code ∧ code ≤ 63) →
          exec (.recallPiston [byte (portCode p), byte code]) s = .next (answered s .ok [4]))
      ∧ exec (.recallPiston [byte (portCode p), 47]) s =
          .next (setPort (answered s .ok [3]) p { portAt s p with level := min 15 ((portAt s p).level + 1) })
      ∧ exec (.recallPiston [byte (portCode p), 48]) s =
          .next (setPort (answered s .ok [3]) p { portAt s p with level := (portAt s p).level - 1 })
      ∧ ∀ code, (code ≤ 39 ∨ (41 ≤ code ∧ code ≤ 46)) →
        let held := (List.range 5).filter fun d => decide (granting s d = some p
          ∧ (code ≤ 9 ∨ code = 41 ∨ (10 ≤ code ∧ code ≤ 39 ∧ d = (code - 10) / 6) ∨ (42 ≤ code ∧ d = code - 42)))
        heldScope s p code = held
        ∧ exec (.recallPiston [byte (portCode p), byte code]) s =
            .next (recallPress (answered s .ok [byte (outcomeCode (recallPress s p code).2)]) p code).1
        ∧ (held = [] →
            exec (.recallPiston [byte (portCode p), byte code]) s =
              .next { answered s .ok [2] with
                counters :=
                  put s.counters (4 * portPlace p + 3) (countUp (look s.counters (4 * portPlace p + 3) 0)) })
        ∧ (held ≠ [] → (portAt s p).recallSlot.inProgress = true →
            exec (.recallPiston [byte (portCode p), byte code]) s =
              .next (setPort (answered s .ok [1]) p
                { portAt s p with recallSlot := { (portAt s p).recallSlot with pendingPiston := some code } }))
        ∧ (held ≠ [] → (portAt s p).recallSlot.inProgress = false →
            ∃ t, exec (.recallPiston [byte (portCode p), byte code]) s = .next t
              ∧ t.response = some { status := .ok, payload := [0] }
              ∧ (∀ n, n < 256 → (stopAt s n).kind ≠ .unused → (stopAt s n).division ∈ held →
                  t.drawn.getLsbD n = (decide (code ≤ 39)
                    && (combinationAt s (portAt s p).level code).getLsbD n))
              ∧ (∀ n, (stopAt s n).kind = .unused ∨ (stopAt s n).division ∉ held →
                  t.drawn.getLsbD n = s.drawn.getLsbD n)
              ∧ (let u := changeEffective true (effectiveSet s) { answered s .ok [0] with drawn := t.drawn }
                t = setPort u p { portAt u p with
                  recallSlot := { (portAt s p).recallSlot with
                    inProgress := true, driveOn := t.drawn &&& ~~~ s.drawn, driveOff := s.drawn &&& ~~~ t.drawn
                    timer := some (portAt s p).entry.drivePeriod } })
              ∧ (portAt t p).recallSlot.inProgress = true
              ∧ (portAt t p).recallSlot.driveOn = t.drawn &&& ~~~ s.drawn
              ∧ (portAt t p).recallSlot.driveOff = s.drawn &&& ~~~ t.drawn
              ∧ (portAt t p).recallSlot.timer = some (portAt s p).entry.drivePeriod
              ∧ (portAt t p).level = (portAt s p).level
              ∧ t.combination = s.combination ∧ t.grants = s.grants ∧ t.stops = s.stops ∧ t.dirty = s.dirty)

/-- The status items and the counters are answered in every mode as they stand, and the read changes nothing else. A
port byte that names no port, a rail or a link above 3 and an expression entry above 7 are answered RANGE. -/
def Obligations.StatusReadsAnswerAndChangeNothing : Prop :=
  ∀ s : State, PortFree s →
    (∀ p, exec (.readStatusPort [byte (portCode p)]) s = .next (answered s .ok
        ([byte (portStateCode (portAt s p).state), byte (portAt s p).good] ++ timerBytes (portAt s p).watchdog
          ++ (portAt s p).image.toList.flatMap (fun w => bytes2 w.toNat)
          ++ [byte (portAt s p).level, byte (flagCode (portAt s p).recallSlot.inProgress),
            byte ((portAt s p).recallSlot.pendingPiston.getD 255)])))
    ∧ (∀ k, k < 4 → exec (.readStatusRail [byte k]) s = .next (answered s .ok
        (bytes2 (railAt s k).draw ++ [byte (flagCode (railAt s k).strained)]
          ++ bytes2 (railAt s k).deferred.length ++ timerBytes (railAt s k).deferred.head?)))
    ∧ (∀ l, l < 4 → exec (.readStatusLink [byte l]) s = .next (answered s .ok
        ([byte (linkStateCode (linkAt s l).state), byte (linkAt s l).miss, byte (flightCode (linkAt s l).flight)]
          ++ bytes2 (s.faults.filter fun n => n / 1024 == l).length)))
    ∧ (∀ e, e < 8 → exec (.readStatusExpression [byte e]) s = .next (answered s .ok
        ([byte (runAt s e).stage, byte (flagCode (runAt s e).faulted), byte (runAt s e).runCount]
          ++ bytes2 (runAt s e).lastValue)))
    ∧ (∀ b, exec (.readStatusStopSets [b]) s = .next (answered s .ok
        (stopSetBytes s.drawn ++ stopSetBytes (effectiveSet s))))
    ∧ (∀ b, s.mode ≠ .quiescing → exec (.readStatusMode [b]) s = .next (answered s .ok
        [byte (modeCode s.mode), 0, 0, 0]))
    ∧ (∀ b, s.mode = .quiescing → exec (.readStatusMode [b]) s = .next (answered s .ok
        ([2] ++ bytes2 (recordsInUse s) ++ [byte (four.filter (unserved s)).length])))
    ∧ exec (.readCounters []) s = .next (answered s .ok (s.counters.toList.flatMap fun w => bytes2 w.toNat))
    ∧ (∀ b : Byte,
        (b.toNat ≠ 1 → b.toNat ≠ 2 → exec (.readStatusPort [b]) s = .next (answered s .range []))
        ∧ (3 < b.toNat → exec (.readStatusRail [b]) s = .next (answered s .range []))
        ∧ (3 < b.toNat → exec (.readStatusLink [b]) s = .next (answered s .range []))
        ∧ (7 < b.toNat → exec (.readStatusExpression [b]) s = .next (answered s .range [])))

/-- A counter that is raised rises by 1 and stops at 65535, and CLEAR_COUNTERS sets all twenty-four to 0 and changes
nothing else. A raise sets the cause's pending flag, overwrites its latest detail, and makes it the first cause exactly
when the line was low and the cause is enabled; every other cause, the enables and the rest of the state stand. -/
def Obligations.CountersAndCausesAreRaised : Prop :=
  (∀ s : State, PortFree s → s.mode ≠ .quiescing →
      ∃ t, exec (.clearCounters []) s = .next t ∧ (∀ c, counterAt t c = 0)
        ∧ t = { answered s .ok [] with counters := t.counters })
    ∧ (∀ (s : State) (c : Counter), (∀ l, c = .framesSent l ∨ c = .repliesMissed l → l < 4) →
        (counterAt (bump s c) c).toNat = min 65535 ((counterAt s c).toNat + 1)
        ∧ ∀ d, Counter.place d ≠ Counter.place c → counterAt (bump s c) d = counterAt s d)
    ∧ (∀ (s : State) (c : Cause) (d : Detail),
        (raise s c d).pendingCauses.getLsbD (Cause.bit c) = true
        ∧ look (raise s c d).details (Cause.bit c) .none = d
        ∧ (∀ b, b ≠ c → (raise s c d).pendingCauses.getLsbD (Cause.bit b) = s.pendingCauses.getLsbD (Cause.bit b)
            ∧ look (raise s c d).details (Cause.bit b) .none = look s.details (Cause.bit b) .none)
        ∧ (attentionLine s = false → s.enabledCauses.getLsbD (Cause.bit c) = true →
            attentionLine (raise s c d) = true ∧ (raise s c d).firstCause = some c)
        ∧ (attentionLine s = true ∨ s.enabledCauses.getLsbD (Cause.bit c) = false →
            (raise s c d).firstCause = s.firstCause)
        ∧ raise s c d = { s with
            pendingCauses := (raise s c d).pendingCauses, details := (raise s c d).details
            firstCause := (raise s c d).firstCause })

/-- READ_ATTENTION answers the pending and enabled sets, the lead cause with its latest detail, and the first cause,
and changes nothing: the lead is the pending and enabled cause of lowest priority number, with FFFF and 0 for
none. WRITE_ATTENTION_ENABLE replaces the twelve enables whole and answers them; CLEAR_ATTENTION clears the
pending flags named and answers what is left; the details and the first cause are kept; a set beyond the twelve
is RANGE. -/
def Obligations.AttentionRequestsReadEnableAndClear : Prop :=
  (∀ s : State, PortFree s →
      (∀ c, s.pendingCauses.getLsbD (Cause.bit c) = true → s.enabledCauses.getLsbD (Cause.bit c) = true →
          (∀ b, Cause.bit b < Cause.bit c → (s.pendingCauses &&& s.enabledCauses).getLsbD (Cause.bit b) = false) →
          exec (.readAttention []) s = .next (answered s .ok (causeSetBytes s.pendingCauses
            ++ causeSetBytes s.enabledCauses ++ [byte (Cause.bit c + 1)]
            ++ Detail.toBytes (look s.details (Cause.bit c) .none) ++ [byte (causeCode s.firstCause)])))
      ∧ (attentionLine s = false →
          exec (.readAttention []) s = .next (answered s .ok (causeSetBytes s.pendingCauses
            ++ causeSetBytes s.enabledCauses ++ [0, 0xFF, 0xFF, byte (causeCode s.firstCause)]))))
    ∧ (∀ (s : State) (params : List Byte), PortFree s → s.mode ≠ .quiescing → params.length = 2 →
        (4096 ≤ wordAt params 0 →
            exec (.writeAttentionEnable params) s = .next (answered s .range [])
            ∧ exec (.clearAttention params) s = .next (answered s .range []))
        ∧ (wordAt params 0 < 4096 →
            let x : CauseSet := BitVec.ofNat 12 (wordAt params 0)
            exec (.writeAttentionEnable params) s =
              .next { answered s .ok (causeSetBytes x) with enabledCauses := x }
            ∧ exec (.clearAttention params) s =
              .next { answered s .ok (causeSetBytes (s.pendingCauses &&& ~~~ x)) with
                pendingCauses := s.pendingCauses &&& ~~~ x }))

/-- A piston make of a code 0 to 39 captures exactly while SET is made at the port, and otherwise is a recall press, as
41 to 46 always are; 47 and 48 move the level, and 40 and 49 to 63 do nothing. A capture with no scope held is counted
as ungranted. Else it stores, in the held scope, the drawn stops, and in a general record keeps the members outside it
and those of kind UNUSED. A name already in the dirty list leaves it and the overflow flag as they were; a new one goes
to the tail, and to a full list only the flag is set. The append to an empty list raises COMBINATION_CHANGED, and no
other capture raises anything. Nothing else changes. READ_DIRTY answers the count, the overflow flag and the names from
the head, and in the same step empties the list and clears the flag; it changes nothing else. -/
def Obligations.CapturesEnterTheDirtyListThatAReadEmpties : Prop :=
  (∀ (s : State) (p : PortId) (code : Nat), code ≤ 63 →
      (code ≤ 39 → SetReadsMade (portAt s p) → pistonMake s p code = capture s p code)
      ∧ (code ≤ 39 → ¬ SetReadsMade (portAt s p) → pistonMake s p code = (recallPress s p code).1)
      ∧ (41 ≤ code → code ≤ 46 → pistonMake s p code = (recallPress s p code).1)
      ∧ (code = 47 →
          pistonMake s p code = setPort s p { portAt s p with level := min 15 ((portAt s p).level + 1) })
      ∧ (code = 48 → pistonMake s p code = setPort s p { portAt s p with level := (portAt s p).level - 1 })
      ∧ (code = 40 ∨ 49 ≤ code → pistonMake s p code = s)
      ∧ (heldScope s p code = [] → capture s p code = bump s (.ungranted p)))
    ∧ (∀ (s : State) (p : PortId) (code : Nat), code ≤ 39 → heldScope s p code ≠ [] → (portAt s p).level ≤ 15 →
      let t := capture s p code
      let level := (portAt s p).level
      (∀ n, n < 256 → (stopAt s n).kind ≠ .unused → (stopAt s n).division ∈ heldScope s p code →
          (combinationAt t level code).getLsbD n = s.drawn.getLsbD n)
      ∧ (∀ n, n < 256 → (stopAt s n).kind = .unused ∨ (stopAt s n).division ∉ heldScope s p code →
          (combinationAt t level code).getLsbD n = (decide (code ≤ 9) && (combinationAt s level code).getLsbD n))
      ∧ t.combination = put s.combination (40 * level + code) (combinationAt t level code)
      ∧ ((level, code) ∈ s.dirty → t.dirty = s.dirty ∧ t.dirtyOverflow = s.dirtyOverflow)
      ∧ ((level, code) ∉ s.dirty → s.dirty.length < 32 →
          t.dirty = s.dirty ++ [(level, code)] ∧ t.dirtyOverflow = s.dirtyOverflow)
      ∧ ((level, code) ∉ s.dirty → 32 ≤ s.dirty.length → t.dirty = s.dirty ∧ t.dirtyOverflow = true)
      ∧ (s.dirty = [] → t.pendingCauses.getLsbD 10 = true ∧ look t.details 10 .none = .port p)
      ∧ (s.dirty ≠ [] →
          t = { s with combination := t.combination, dirty := t.dirty, dirtyOverflow := t.dirtyOverflow })
      ∧ t = { s with
          combination := t.combination, dirty := t.dirty, dirtyOverflow := t.dirtyOverflow
          pendingCauses := t.pendingCauses, details := t.details, firstCause := t.firstCause })
    ∧ (∀ s : State, PortFree s →
        ∃ t, exec (.readDirty []) s = .next t
          ∧ t = { answered s .ok ([byte s.dirty.length, byte (flagCode s.dirtyOverflow)]
              ++ s.dirty.flatMap fun x => [byte x.1, byte x.2]) with dirty := [], dirtyOverflow := false })

/-- CLEAR_FAULT of one outlet removes it or answers NOT_FOUND, of a number that names no outlet RANGE, of all
empties the set and answers the number removed; nothing else changes. NEXT_FAULT answers the lowest outlet of
the fault set at or above the starting number, or NOT_FOUND, in every mode, and changes nothing else. -/
def Obligations.FaultSetRequestsReadAndClear : Prop :=
  (∀ (s : State) (n : Nat), PortFree s → s.mode ≠ .quiescing → n < 65536 →
      (4095 < n ∨ 768 ≤ n % 1024 → exec (.clearFaultOne (bytes2 n)) s = .next (answered s .range []))
      ∧ (n ≤ 4095 → n % 1024 < 768 → n ∉ s.faults →
          exec (.clearFaultOne (bytes2 n)) s = .next (answered s .notFound []))
      ∧ (n ≤ 4095 → n % 1024 < 768 → n ∈ s.faults →
          ∃ t, exec (.clearFaultOne (bytes2 n)) s = .next t
            ∧ t = { answered s .ok [] with faults := t.faults }
            ∧ ∀ m, m ∈ t.faults ↔ m ∈ s.faults ∧ m ≠ n)
      ∧ exec (.clearFaultAll []) s = .next { answered s .ok (bytes2 s.faults.length) with faults := [] })
    ∧ (∀ (s : State) (n : Nat), PortFree s → s.faults.Pairwise (fun a b => a < b) →
        (4095 < n → n < 65536 → exec (.nextFault (bytes2 n)) s = .next (answered s .range []))
        ∧ (n ≤ 4095 → (∀ m, m ∈ s.faults → m < n) → exec (.nextFault (bytes2 n)) s = .next (answered s .notFound []))
        ∧ (∀ m, n ≤ 4095 → m ∈ s.faults → n ≤ m → (∀ k, k ∈ s.faults → n ≤ k → m ≤ k) →
            exec (.nextFault (bytes2 n)) s = .next (answered s .ok (bytes2 m))))

/-! ### The console links -/

/-- A start mark on the first bit of a slot, or the first one the port takes since it left OFF, taken by a waiting
receiver, begins a scan frame with no slot taken and, at the same step, a return frame of the port's return slots with
their check: the coils of the stops driven ON or OFF from a first stop on, or the port's level, SET and the
divisions it holds, or zeros. A mark on another bit is held, and taken at the boundary at the end of the slot it fell
in. A port whose receiver is idle takes nothing. An early start mark abandons the frame in progress with its
return frame: the receiver waits again, the counter of early starts rises, and the good-frame count goes to 0. Nothing
else changes. The model's choices: that a mark inside a slot is held, and that the first word of the next SCAN_FRAME is
the slot it fell in (log 6); and that EARLY_START_MARK off the boundary is the same event on the line (log 4). -/
def Obligations.StartMarksBeginAndAbandonFrames : Prop :=
  (∀ (s : State) (p : PortId) (bit : Fin 16) (ws : List Word),
      ws.length = (portAt s p).entry.returnSlots →
      (∀ i b, i < (portAt s p).entry.returnSlots → b < 16 →
        let e := returnAt (portAt s p) i
        ((ws.getD i 0).getLsbD b = true ↔
          (e.kind = .tabDriveOn ∧ (portAt s p).recallSlot.driveOn.getLsbD (e.firstStop + b) = true)
          ∨ (e.kind = .tabDriveOff ∧ (portAt s p).recallSlot.driveOff.getLsbD (e.firstStop + b) = true)
          ∨ (e.kind = .indicator
            ∧ ((b < 4 ∧ (portAt s p).level.testBit b = true) ∨ (b = 4 ∧ SetReadsMade (portAt s p))
              ∨ (5 ≤ b ∧ b ≤ 10 ∧ granting s (b - 5) = some p))))) →
      (portAt s p).receiver = .waiting →
      (bit = 0 ∧ (portAt s p).framing = .reckoned) ∨ (portAt s p).framing = .unset →
      exec (.startMark { port := p, bit := bit }) s = .next (setPort s p { portAt s p with
        receiver := .receiving [], framing := .reckoned, returnFrame := some (ws ++ [checkWord ws]) }))
    ∧ (∀ (s : State) (p : PortId) (bit : Fin 16),
        ((portAt s p).receiver = .idle → exec (.startMark { port := p, bit := bit }) s = .next s)
        ∧ ((portAt s p).receiver ≠ .idle → (portAt s p).framing = .reckoned → bit ≠ 0 →
            exec (.startMark { port := p, bit := bit }) s = .next (setPort s p { portAt s p with framing := .held })
            ∧ exec (.earlyStartMark { port := p, bit := bit }) s =
              .next (setPort s p { portAt s p with framing := .held })))
    ∧ (∀ (s u v : State) (p : PortId) (w : Word) (rest : List Word), (portAt s p).framing = .held →
        exec (.scanFrame p [w]) (setPort s p { portAt s p with framing := .reckoned }) = .next u →
        exec (.startMark { port := p, bit := 0 }) u = .next v →
        exec (.scanFrame p (w :: rest)) s = exec (.scanFrame p rest) v)
    ∧ (∀ (s : State) (p : PortId) (taken : List Word), (portAt s p).receiver = .receiving taken →
        (portAt s p).framing = .reckoned →
        exec (.earlyStartMark { port := p, bit := 0 }) s = .next (setPort
          { s with
            counters := put s.counters (4 * portPlace p + 1) (countUp (look s.counters (4 * portPlace p + 1) 0)) }
          p { portAt s p with receiver := .waiting, returnFrame := none, good := 0 }))

/-- A frame that stops short stays in progress with its slots so far, its return frame sent alongside; and a complete
frame whose check differs is counted as a check failure, uses none of its slots and sets the good-frame count to 0. No
start mark is held. -/
def Obligations.IncompleteAndInvalidFramesAreNotUsed : Prop :=
  ∀ (s : State) (p : PortId) (taken slots : List Word), (portAt s p).receiver = .receiving taken →
    (portAt s p).framing ≠ .held →
    ((taken ++ slots).length ≤ (portAt s p).entry.dataSlots →
        exec (.scanFrame p slots) s = .next (setPort s p { portAt s p with
          receiver := .receiving (taken ++ slots)
          returnFrame := if (portAt s p).entry.returnSlots + 1 ≤ (taken ++ slots).length then none
            else (portAt s p).returnFrame }))
    ∧ ((portAt s p).entry.dataSlots < (taken ++ slots).length →
        (taken ++ slots).getD (portAt s p).entry.dataSlots 0
          ≠ checkWord ((taken ++ slots).take (portAt s p).entry.dataSlots) →
        exec (.scanFrame p slots) s = .next (setPort
          { s with
            counters := put s.counters (4 * portPlace p + 2) (countUp (look s.counters (4 * portPlace p + 2) 0)) }
          p { portAt s p with receiver := .waiting, returnFrame := none, good := 0 }))

/-- A valid frame in SEEKING or LOST, in however many commands its slots came, is counted; below the recovery count it
raises the good-frame count and nothing else. At the recovery count the port enters ONLINE with its watchdog started, its
image the frame's mapped contacts, and PORT_ONLINE raised with the port, and no contact of it counts as ungranted. Its
arrival is then taken: the stops of the divisions it holds that have a tab on it and are not driven are drawn as their
tabs show, a change of the effective set that makes no claims; the keys made in its image are played by division, key
and touch, FIRST before SECOND; and the Expression unit walks the frame's values. -/
def Obligations.ValidFramesBringThePortOnline : Prop :=
  ∀ (s : State) (p : PortId) (taken slots data : List Word), (portAt s p).receiver = .receiving taken →
    (portAt s p).framing ≠ .held → taken ++ slots = data ++ [checkWord data] →
    data.length = (portAt s p).entry.dataSlots →
    ((portAt s p).state = .seeking ∨ (portAt s p).state = .lost) →
    ((portAt s p).good + 1 < (portAt s p).entry.recovery →
        exec (.scanFrame p slots) s = .next (setPort
          { s with counters := put s.counters (4 * portPlace p) (countUp (look s.counters (4 * portPlace p) 0)) }
          p { portAt s p with receiver := .waiting, returnFrame := none, good := (portAt s p).good + 1 }))
    ∧ ((portAt s p).entry.recovery ≤ (portAt s p).good + 1 →
        ∃ (a : State) (drawn : StopSet) (t : State), exec (.scanFrame p slots) s = .next t
          ∧ a = raise (setPort
              { s with counters := put s.counters (4 * portPlace p) (countUp (look s.counters (4 * portPlace p) 0)) }
              p { portAt s p with
                state := .online, receiver := .waiting, returnFrame := none, good := 0, image := (portAt a p).image
                debounce := Vector.replicate 1024 0, watchdog := some (portAt s p).entry.watchdog })
              .portOnline (.port p)
          ∧ (portAt a p).image = (portAt t p).image
          ∧ (∀ n, n < 256 →
              let taken := (stopAt s n).kind ≠ .unused ∧ (stopAt s n).division ≠ 5
                ∧ granting s (stopAt s n).division = some p ∧ TabMapped (portAt s p) n
                ∧ (portAt s p).recallSlot.driveOn.getLsbD n = false
                ∧ (portAt s p).recallSlot.driveOff.getLsbD n = false
              (taken → (drawn.getLsbD n = true ↔ TabReadsMade (portAt a p) n))
              ∧ (¬ taken → drawn.getLsbD n = s.drawn.getLsbD n))
          ∧ (∀ xs : List Nat, xs.Pairwise (· < ·) →
              (∀ x, x ∈ xs ↔ granting s (x / 128) = some p
                ∧ x % 128 / 2 < (if x / 128 = 0 ∨ x / 128 = 5 then 32 else 61)
                ∧ KeyReadsMade (portAt a p) (x / 128) (if x % 2 = 0 then .first else .second) (x % 128 / 2)) →
              t = walk
                (xs.foldl (fun v x => keyMake v p (x / 128) (if x % 2 = 0 then .first else .second) (x % 128 / 2))
                  (changeEffective false (effectiveSet a) { a with drawn := drawn }))
                p data)
          ∧ (portAt t p).state = .online ∧ (portAt t p).receiver = .waiting ∧ (portAt t p).good = 0
          ∧ (portAt t p).watchdog = some (portAt s p).entry.watchdog
          ∧ (∀ i b, i < 64 → b < 16 → (imageAt (portAt t p) i).getLsbD b
              = (mapped (portAt s p) i b && (data.getD i 0).getLsbD b))
          ∧ counterAt t (.validFrames p) = countUp (counterAt s (.validFrames p))
          ∧ (∀ q, counterAt t (.ungranted q) = counterAt s (.ungranted q))
          ∧ t.pendingCauses.getLsbD 9 = true ∧ look t.details 9 .none = .port p
          ∧ t.grants = s.grants ∧ t.combination = s.combination ∧ t.mode = s.mode ∧ t.links = s.links)

/-- A valid frame of an ONLINE port reloads its watchdog and leaves it ONLINE. Its contacts are then taken in slot order
and, within a slot, in contact order, an unmapped one passed by, and the Expression unit walks its values; a frame in
which every mapped contact agrees with the accepted image leaves the image as it is, every debounce count of a mapped
contact 0, and the sounding table and the drawn set untouched when no expression entry is enabled. A contact
changes when it has shown the change for its debounce of valid frames: the count below that rises by 1 and
nothing else, the image takes the change at the count, and a frame that agrees sets the count to 0. A change is handed on
in the same step by the slot's kind: a key's make or break, a tab event, a piston's make, and nothing for a piston's
break. A watchdog expiry taken right after the frame that reloads the
watchdog does not take place: the port stays ONLINE. That an expiry which waits in the queue behind the frame fell
together with it, and the mark the model keeps of that, are the model's (log 22). -/
def Obligations.OnlineFramesReloadAndDebounce : Prop :=
  (∀ (s : State) (p : PortId) (taken slots data : List Word), (portAt s p).receiver = .receiving taken →
      (portAt s p).framing ≠ .held → taken ++ slots = data ++ [checkWord data] →
      data.length = (portAt s p).entry.dataSlots → (portAt s p).state = .online →
      ∃ t, exec (.scanFrame p slots) s = .next t
        ∧ (portAt t p).state = .online ∧ (portAt t p).receiver = .waiting
        ∧ (portAt t p).watchdog = some (portAt s p).entry.watchdog
        ∧ counterAt t (.validFrames p) = countUp (counterAt s (.validFrames p))
        ∧ t = walk
            (((List.range data.length).flatMap fun i => (List.range 16).map fun b => (i, b)).foldl (takeContact p data)
              (setPort
                { s with counters := put s.counters (4 * portPlace p) (countUp (look s.counters (4 * portPlace p) 0)) }
                p { portAt s p with
                  receiver := .waiting, returnFrame := none, watchdog := some (portAt s p).entry.watchdog
                  overtaken := (portAt s p).overtaken || s.pending.contains (.watchdogExpiry p) }))
            p data
        ∧ (data.length ≤ 64 →
            (∀ i b, mapped (portAt s p) i b = true →
              (data.getD i 0).getLsbD b = (imageAt (portAt s p) i).getLsbD b) →
            (exprAt s 0).enabled = false →
            t.table = s.table ∧ t.drawn = s.drawn ∧ (portAt t p).image = (portAt s p).image
              ∧ ∀ i b, i < 64 → b < 16 → mapped (portAt s p) i b = true → debounceAt (portAt t p) i b = 0)
        ∧ (∀ rest, s.pending = .watchdogExpiry p :: rest →
            step t = .next (setPort { t with pending := rest } p { portAt t p with overtaken := false })))
    ∧ (∀ (s : State) (p : PortId) (data : List Word) (i b : Nat), i < 64 → b < 16 → mapped (portAt s p) i b = true →
        let raw := (data.getD i 0).getLsbD b
        let old := (imageAt (portAt s p) i).getLsbD b
        (raw = old → takeContact p data s (i, b) = setPort s p (withDebounce (portAt s p) i b 0))
        ∧ (raw ≠ old → debounceAt (portAt s p) i b + 1 < (slotAt (portAt s p) i).debounce →
            takeContact p data s (i, b) =
              setPort s p (withDebounce (portAt s p) i b (debounceAt (portAt s p) i b + 1)))
        ∧ (raw ≠ old → (slotAt (portAt s p) i).debounce ≤ debounceAt (portAt s p) i b + 1 →
            (imageAt (portAt (takeContact p data s (i, b)) p) i).getLsbD b = raw
            ∧ debounceAt (portAt (takeContact p data s (i, b)) p) i b = 0
            ∧ (let e := slotAt (portAt s p) i
              let changed := setPort s p (withContact (withDebounce (portAt s p) i b 0) i b raw)
              (e.kind = .keys → raw = true →
                  takeContact p data s (i, b) = keyMake changed p e.division e.touch (e.first + b))
              ∧ (e.kind = .keys → raw = false →
                  takeContact p data s (i, b) = keyBreak changed p e.division e.touch (e.first + b))
              ∧ (e.kind = .tabs → takeContact p data s (i, b) = tabEvent changed p (e.first + b) raw)
              ∧ (e.kind = .pistons → raw = true →
                  takeContact p data s (i, b) = pistonMake changed p (e.first + b))
              ∧ (e.kind = .pistons → raw = false → takeContact p data s (i, b) = changed))))
    ∧ (∀ (s : State) (p : PortId) (data : List Word) (i b : Nat), mapped (portAt s p) i b = false →
        takeContact p data s (i, b) = s)

/-- A key make from the granting port is the claim requests of every effective VOICE or FIXED stop of its division and
touch that resolves for the key, in ascending stop number, and nothing else. A key break from the granting port is one
release request, which removes exactly the claims of that port, division, touch and key. A key event from a port that does not hold the division does
nothing but count. -/
def Obligations.KeyEventsFollowTheGrant : Prop :=
  ∀ (s : State) (p : PortId) (d : Nat) (touch : Touch) (k : Nat),
    (granting s d = some p →
        (∀ ns : List Nat, ns.Pairwise (· < ·) →
          (∀ n, n ∈ ns ↔ n < 256 ∧ ((stopAt s n).kind = .voice ∨ (stopAt s n).kind = .fixed)
            ∧ (stopAt s n).division = d ∧ (stopAt s n).touch = touch ∧ effective s n = true) →
          keyMake s p d touch k = ns.foldl (fun u n => asksClaim s p d touch u k n) s)
        ∧ ReleasedBy (fun _ c => c.port == p && c.division == d && c.touch == touch && c.key == k) s
            (keyBreak s p d touch k)
        ∧ (let t := keyBreak s p d touch k
          t = { s with table := t.table, rails := t.rails, counters := t.counters })
        ∧ (∀ c, HoldsClaim (keyBreak s p d touch k) c ↔
          HoldsClaim s c ∧ ¬ (c.port = p ∧ c.division = d ∧ c.touch = touch ∧ c.key = k)))
    ∧ (granting s d ≠ some p →
        keyMake s p d touch k = bump s (.ungranted p) ∧ keyBreak s p d touch k = bump s (.ungranted p))

/-- A watchdog expiry takes an ONLINE port to LOST: its image all open, its debounce and good-frame counts 0, its
recall slot cancelled, exactly its claims gone in one release request, and PORT_LOST raised; the drawn set, the grants, the run states, the
crescendo stage, the port's level, the ports' counters and a frame in progress are kept, and no tab is checked. -/
def Obligations.WatchdogExpiryLosesThePort : Prop :=
  ∀ (s : State) (p : PortId) (w : Nat), (portAt s p).state = .online → (portAt s p).watchdog = some w →
    (portAt s p).overtaken = false →
    ∃ t, exec (.watchdogExpiry p) s = .next t
      ∧ (portAt t p).state = .lost ∧ (portAt t p).watchdog = none ∧ (portAt t p).good = 0
      ∧ (portAt t p).image = Vector.replicate 64 0 ∧ (portAt t p).debounce = Vector.replicate 1024 0
      ∧ (portAt t p).recallSlot = RecallSlot.idle ∧ (portAt t p).level = (portAt s p).level
      ∧ ReleasedBy (fun _ c => c.port == p) s t
      ∧ (∀ c, HoldsClaim t c ↔ HoldsClaim s c ∧ c.port ≠ p)
      ∧ t.pendingCauses.getLsbD 2 = true ∧ look t.details 2 .none = .port p
      ∧ t.drawn = s.drawn ∧ t.grants = s.grants ∧ t.runs = s.runs ∧ t.tremulants = s.tremulants
      ∧ crescendoStage t = crescendoStage s ∧ (portAt t p).receiver = (portAt s p).receiver
      ∧ (portAt t p).returnFrame = (portAt s p).returnFrame ∧ (portAt t p).framing = (portAt s p).framing
      ∧ counterAt t .tabMismatches = counterAt s .tabMismatches
      ∧ (∀ q, counterAt t (.validFrames q) = counterAt s (.validFrames q)
          ∧ counterAt t (.earlyStarts q) = counterAt s (.earlyStarts q)
          ∧ counterAt t (.checkFailures q) = counterAt s (.checkFailures q)
          ∧ counterAt t (.ungranted q) = counterAt s (.ungranted q))

/-- A drive timer's expiry checks, while the port is ONLINE, each driven stop that has a tab: in ascending number, each
whose tab reads otherwise than drawn is counted and raises TAB_MISMATCH with its number, so that the highest stands
as the detail. It then leaves the recall slot idle, and a piston that was pending is taken as a fresh press. Nothing
else changes; with the port not ONLINE no stop is checked. -/
def Obligations.DriveTimerExpiryChecksTabs : Prop :=
  ∀ (s : State) (p : PortId) (ms : Nat) (ns : List Nat), (portAt s p).recallSlot.timer = some ms →
    ns.Pairwise (· < ·) →
    (∀ n, n ∈ ns ↔ n < 256 ∧ (portAt s p).state = .online
      ∧ ((portAt s p).recallSlot.driveOn.getLsbD n = true ∨ (portAt s p).recallSlot.driveOff.getLsbD n = true)
      ∧ TabMapped (portAt s p) n ∧ ¬ (TabReadsMade (portAt s p) n ↔ s.drawn.getLsbD n = true)) →
    let checked := ns.foldl (fun u n => raise (bump u .tabMismatches) .tabMismatch (.number n)) s
    let cleared := setPort checked p { portAt s p with recallSlot := RecallSlot.idle }
    ((portAt s p).recallSlot.pendingPiston = none → exec (.driveTimerExpiry p) s = .next cleared)
    ∧ (∀ code, (portAt s p).recallSlot.pendingPiston = some code →
        exec (.driveTimerExpiry p) s = .next (recallPress cleared p code).1)
    ∧ counterAt cleared .tabMismatches = ns.foldl (fun w _ => countUp w) (counterAt s .tabMismatches)
    ∧ (∀ n, ns.getLast? = some n →
        cleared.pendingCauses.getLsbD 8 = true ∧ look cleared.details 8 .none = .number n)
    ∧ cleared.drawn = s.drawn ∧ cleared.table = s.table

/-! ### The effective set -/

/-- A stop is effective exactly when it is drawn, or FIXED in division 5, or in the stage record of the current stage of
the enabled CRESCENDO entry with its division granted to that entry's source port, an UNUSED stop by the division 0 it is
stored with, which is the model's reading (log 10). A tab event is passed by for an UNUSED stop and one of division 5, counted as
ungranted for a port that does not hold the stop's division, passed by for a driven stop and for a state already
as the event sets it, and otherwise sets the drawn state and is one change of the effective set. -/
def Obligations.EffectiveSetAndTabEvents : Prop :=
  (∀ (s : State) (n : Nat), n < 256 → OneCrescendoEntry s →
      (effectiveSet s).getLsbD n = effective s n
      ∧ (effective s n = true ↔
        s.drawn.getLsbD n = true
        ∨ ((stopAt s n).kind = .fixed ∧ (stopAt s n).division = 5)
        ∨ ∃ e p, e < 8 ∧ (exprAt s e).enabled = true ∧ (exprAt s e).target = .crescendo
          ∧ (exprAt s e).port = some p ∧ granting s (stopAt s n).division = some p
          ∧ 1 ≤ (runAt s e).stage ∧ (look s.crescendo ((runAt s e).stage - 1) 0).getLsbD n = true))
    ∧ (∀ (s : State) (p : PortId) (n : Nat) (made : Bool), n < 256 →
        ((stopAt s n).kind = .unused ∨ (stopAt s n).division = 5 → tabEvent s p n made = s)
        ∧ ((stopAt s n).kind ≠ .unused → (stopAt s n).division ≠ 5 →
            (granting s (stopAt s n).division ≠ some p → tabEvent s p n made = bump s (.ungranted p))
            ∧ (granting s (stopAt s n).division = some p →
                ((portAt s p).recallSlot.driveOn.getLsbD n = true ∨ (portAt s p).recallSlot.driveOff.getLsbD n = true
                    ∨ s.drawn.getLsbD n = made →
                  tabEvent s p n made = s)
                ∧ ((portAt s p).recallSlot.driveOn.getLsbD n = false →
                    (portAt s p).recallSlot.driveOff.getLsbD n = false → s.drawn.getLsbD n ≠ made →
                    let x := if made then s.drawn ||| BitVec.twoPow 256 n else s.drawn &&& ~~~ BitVec.twoPow 256 n
                    tabEvent s p n made = changeEffective true (effectiveSet s) { s with drawn := x }
                      ∧ (tabEvent s p n made).drawn = x
                      ∧ effectiveSet (tabEvent s p n made) = effectiveSet { s with drawn := x }))))

/-- A change of the effective set takes the stops going off and then the stops coming on, each in ascending number, and
no stop whose effective state stands. A TREMULANT stop going off or coming on takes its rank's standing output afresh
and changes nothing else; a VOICE or FIXED stop going off is one release request of the claims that name it. One coming on makes a
claim request for each key of its division made at its touch in the granting port's image, in ascending key
order, where the Resolver names a pipe, and none where the division has no holder or the event makes no claims. An
UNUSED stop needs nothing. -/
def Obligations.EffectiveChangesGoOffThenComeOn : Prop :=
  (∀ (s : State) (before : StopSet) (claims : Bool),
      changeEffective claims before s =
        ((List.range 256).filter fun n => effective s n && !before.getLsbD n).foldl (comeOn claims)
          (((List.range 256).filter fun n => before.getLsbD n && !effective s n).foldl goOff s))
    ∧ (∀ (s : State) (n : Nat) (claims : Bool),
        ((stopAt s n).kind = .unused → goOff s n = s ∧ comeOn claims s n = s)
        ∧ ((stopAt s n).kind = .tremulant →
            let t := goOff s n
            comeOn claims s n = t ∧ t = { s with tremulants := t.tremulants }
            ∧ (∀ q, q ≠ (stopAt s n).rank → t.tremulants.getLsbD q = s.tremulants.getLsbD q)
            ∧ ((stopAt s n).rank < 64 → (t.tremulants.getLsbD (stopAt s n).rank = true ↔
                s.mode = .run ∧ (rankAt s (stopAt s n).rank).kind = .tremulant
                  ∧ ∃ m, m < 256 ∧ (stopAt s m).kind = .tremulant ∧ (stopAt s m).rank = (stopAt s n).rank
                    ∧ effective s m = true)))
        ∧ ((stopAt s n).kind = .voice ∨ (stopAt s n).kind = .fixed →
            ReleasedBy (fun _ c => c.stop == n) s (goOff s n)
            ∧ (∀ c, HoldsClaim (goOff s n) c ↔ HoldsClaim s c ∧ c.stop ≠ n)
            ∧ goOff s n = { s with
                table := (goOff s n).table, rails := (goOff s n).rails, counters := (goOff s n).counters }
            ∧ comeOn false s n = s
            ∧ (granting s (stopAt s n).division = none → comeOn true s n = s)
            ∧ (∀ (p : PortId) (ks : List Nat), granting s (stopAt s n).division = some p → ks.Pairwise (· < ·) →
                (∀ k, k ∈ ks ↔ k < (if (stopAt s n).division = 0 ∨ (stopAt s n).division = 5 then 32 else 61)
                  ∧ KeyReadsMade (portAt s p) (stopAt s n).division (stopAt s n).touch k) →
                comeOn true s n =
                  ks.foldl (fun u k => asksClaim s p (stopAt s n).division (stopAt s n).touch u k n) s)))

/-! ### The sounding records and the rails -/

/-- An admission request is admitted when the rail's list is empty and the pull units fit: the draw rises by them,
the record is energized by its kind, and strain is judged on the risen draw. Otherwise it is deferred: WAITING with
charge 0 at the tail of the list, its wait timer at the defer limit, counted, and the draw as it was. Nothing else
changes either way. A judgment makes a rail STRAINED above its high watermark, NORMAL below its low watermark, and
leaves it from the one to the other, both included. The head-of-line pass admits the head while its pull units
fit: the head leaves the list, is energized with its overdue flag clear, and the draw rises and is judged, before the
next head is looked at; the pass stops on an empty list and at the first head that does not fit. The allocator's work
on a rail is the judgment, the pass to its end, and, where the judgment moved the rail from STRAINED to NORMAL, the
admission request of each paused REITERATE record of the rail, in ascending index, its flag cleared as it asks. -/
def Obligations.RailsAdmitInOrderAndJudgeStrain : Prop :=
  (∀ (s : State) (i : Nat) (r : Record), recordAt s i = some r → r.charge = 0 → (rankAt s r.rank).rail < 4 →
      let k := (rankAt s r.rank).rail
      let e := rankAt s r.rank
      let t := admissionRequest s i
      ((railAt s k).deferred = [] → (railAt s k).draw + e.pull ≤ (railAt s k).entry.capacity →
          (railAt t k).draw = (railAt s k).draw + e.pull ∧ (railAt t k).deferred = []
          ∧ (railAt t k).strained = (if (railAt s k).entry.high < (railAt s k).draw + e.pull then true
              else if (railAt s k).draw + e.pull < (railAt s k).entry.low then false else (railAt s k).strained)
          ∧ t.counters = s.counters
          ∧ ∃ x, recordAt t i = some x ∧ x.charge = e.pull ∧ x.claims = r.claims
            ∧ x.state = (match r.kind with
              | .pipe => .pulling
              | .held => .pulling
              | .strike => .striking
              | .reiterate => .striking)
            ∧ x = asAdmitted e r)
      ∧ ((railAt s k).deferred ≠ [] ∨ (railAt s k).entry.capacity < (railAt s k).draw + e.pull →
          (railAt t k).draw = (railAt s k).draw ∧ (railAt t k).deferred = (railAt s k).deferred ++ [i]
          ∧ counterAt t .deferredAdmissions = countUp (counterAt s .deferredAdmissions)
          ∧ ∃ x, recordAt t i = some x ∧ x.charge = 0 ∧ x.claims = r.claims ∧ x.state = .waiting
            ∧ x.phase = some (railAt s k).entry.deferLimit
            ∧ x = { r with
                state := .waiting, charge := 0, phase := some (railAt s k).entry.deferLimit, cycle := none
                cycleHeld := false, protection := none, paused := false })
      ∧ (∀ j, j ≠ i → recordAt t j = recordAt s j) ∧ (∀ m, m < 4 → m ≠ k → railAt t m = railAt s m)
      ∧ t = { s with table := t.table, rails := t.rails, counters := t.counters })
    ∧ (∀ (s : State) (k : Nat), k < 4 → (railAt s k).entry.low < (railAt s k).entry.high →
        ((railAt s k).entry.high < (railAt s k).draw → (railAt (judgeStrain s k) k).strained = true)
        ∧ ((railAt s k).draw < (railAt s k).entry.low → (railAt (judgeStrain s k) k).strained = false)
        ∧ ((railAt s k).entry.low ≤ (railAt s k).draw → (railAt s k).draw ≤ (railAt s k).entry.high →
            judgeStrain s k = s))
    ∧ (∀ (s : State) (k : Nat), k < 4 →
        ((railAt s k).deferred = [] → ∀ n, headPass k n s = s)
        ∧ (∀ (i : Nat) (rest : List Nat) (r : Record), (railAt s k).deferred = i :: rest → recordAt s i = some r →
            let e := rankAt s r.rank
            ((railAt s k).entry.capacity < (railAt s k).draw + e.pull → ∀ n, headPass k n s = s)
            ∧ ((railAt s k).draw + e.pull ≤ (railAt s k).entry.capacity → e.rail = k → r.charge = 0 →
                ∃ u, (∀ n, headPass k (n + 1) s = headPass k n u)
                  ∧ recordAt u i = some (asAdmitted e r) ∧ (∀ j, j ≠ i → recordAt u j = recordAt s j)
                  ∧ railAt u k = { railAt s k with
                      deferred := rest, draw := (railAt s k).draw + e.pull
                      strained := if (railAt s k).entry.high < (railAt s k).draw + e.pull then true
                        else if (railAt s k).draw + e.pull < (railAt s k).entry.low then false
                        else (railAt s k).strained }
                  ∧ (∀ m, m < 4 → m ≠ k → railAt u m = railAt s m)
                  ∧ u = { s with table := u.table, rails := u.rails })))
    ∧ (∀ (s : State) (k : Nat), k < 4 →
        let u := judgeStrain s k
        let v := headPass k (railAt s k).deferred.length u
        (∃ n, (railAt v k).deferred = (railAt s k).deferred.drop n)
        ∧ (∀ (i : Nat) (rest : List Nat) (r : Record), (railAt v k).deferred = i :: rest → recordAt v i = some r →
            (railAt v k).entry.capacity < (railAt v k).draw + (rankAt v r.rank).pull)
        ∧ ((railAt s k).strained = true → (railAt u k).strained = false → ∀ ks : List Nat, ks.Pairwise (· < ·) →
            (∀ i, i ∈ ks ↔ ∃ r, recordAt v i = some r ∧ r.kind = .reiterate ∧ r.paused = true
              ∧ (rankAt s r.rank).rail = k) →
            allocatorWork s k = ks.foldl (fun w i =>
              admissionRequest (setRecord w i ((recordAt w i).map fun r => { r with paused := false })) i) v)
        ∧ ((railAt s k).strained = false ∨ (railAt u k).strained = true → allocatorWork s k = v))

/-- A claim request never breaks the table: the claim is refused as a duplicate, refused for a full list, joined, made
the one claim of a new record at the lowest FREE index, or refused for a full table, and no other claim appears. A
joining claim goes to the tail of the list. It sets restrike pending on a STRIKE record in STRIKING or SETTLING and on a
REITERATE record in STRIKING whose cycle timer is none; a STRIKE record in STRUCK then makes its admission request;
and in every other case nothing else changes. A new record has the rank's kind, charge 0, its flags clear and strike
count 0, and makes its admission request, whose outcome gives it its first state. -/
def Obligations.ClaimRequestAddsAtMostItsOwnClaim : Prop :=
  ∀ (s : State) (c : Claim) (rank pipe : Nat), TableSound s →
    TableSound (claimRequest s c rank pipe)
    ∧ (∀ x, HoldsClaim (claimRequest s c rank pipe) x → HoldsClaim s x ∨ x = c)
    ∧ (∀ i r, recordAt s i = some r → r.rank = rank → r.pipe = pipe → c ∈ r.claims →
        claimRequest s c rank pipe = bump s .duplicateClaims)
    ∧ (∀ i r, recordAt s i = some r → r.rank = rank → r.pipe = pipe → c ∉ r.claims → r.claims.length = 12 →
        claimRequest s c rank pipe = raise (bump s .claimOverflows) .claimOverflow (.number i))
    ∧ (∀ i r, recordAt s i = some r → r.rank = rank → r.pipe = pipe → c ∉ r.claims → r.claims.length < 12 →
        let x := { r with claims := r.claims ++ [c] }
        let marked := (r.kind = .strike ∧ (r.state = .striking ∨ r.state = .settling))
          ∨ (r.kind = .reiterate ∧ r.state = .striking ∧ r.cycle = none)
        let asks := r.kind = .strike ∧ r.state = .struck
        (marked → claimRequest s c rank pipe = setRecord s i (some { x with restrike := true }))
        ∧ (asks → claimRequest s c rank pipe = admissionRequest (setRecord s i (some x)) i)
        ∧ (¬ marked → ¬ asks → claimRequest s c rank pipe = setRecord s i (some x))
        ∧ ∃ y, recordAt (claimRequest s c rank pipe) i = some y ∧ y.claims = r.claims ++ [c])
    ∧ ((∀ i r, recordAt s i = some r → ¬ (r.rank = rank ∧ r.pipe = pipe)) →
        ((rankAt s rank).kind = .pipe ∨ (rankAt s rank).kind = .strike ∨ (rankAt s rank).kind = .reiterate
          ∨ (rankAt s rank).kind = .held) →
        ((∀ i, i < 448 → recordAt s i ≠ none) →
          claimRequest s c rank pipe = raise (bump s .tableFullClaims) .tableFull (.rankPipe rank pipe))
        ∧ (∀ i, i < 448 → recordAt s i = none → (∀ j, j < i → recordAt s j ≠ none) →
            ∃ x, recordAt (claimRequest s c rank pipe) i = some x ∧ x.rank = rank ∧ x.pipe = pipe
              ∧ recordKind? (rankAt s rank).kind = some x.kind ∧ x.claims = [c]
              ∧ (∀ j, j ≠ i → recordAt (claimRequest s c rank pipe) j = recordAt s j)
              ∧ x.restrike = false ∧ x.overdue = false ∧ x.paused = false ∧ x.cycleHeld = false
              ∧ (∀ st, claimRequest s c rank pipe = admissionRequest (setRecord s i (some {
                  rank := rank, pipe := pipe, kind := x.kind, state := st, claims := [c], charge := 0, phase := none
                  cycle := none, protection := none, restrike := false, overdue := false, paused := false
                  strikeCount := 0, cycleHeld := false })) i)))

/-- A wait timer's expiry sets the overdue flag, counts it and raises SUPPLY_OVERDUE with the record's index; the record
keeps its state, its claims and its place in the list. A pull timer's expiry takes a PULLING record to SPEAKING at its
hold charge, which is 1 when the rank's hold units are 0, and its protection timer runs on; no claim comes or goes. The
rail's draw changes with the charge, and where it falls the allocator does its work on the rail. -/
def Obligations.WaitAndPullExpiriesMoveTheirRecord : Prop :=
  (∀ (s : State) (i : Fin 448) (r : Record) (ms : Nat), recordAt s i = some r → r.state = .waiting →
      r.phase = some ms →
      ∃ t, exec (.waitTimerExpiry i) s = .next t
        ∧ recordAt t i = some { r with overdue := true, phase := none }
        ∧ (∀ j, j ≠ i.val → recordAt t j = recordAt s j) ∧ t.rails = s.rails
        ∧ counterAt t .overdueWaits = countUp (counterAt s .overdueWaits)
        ∧ t.pendingCauses.getLsbD 5 = true ∧ look t.details 5 .none = .number i.val
        ∧ t = { s with
            table := t.table, counters := t.counters, pendingCauses := t.pendingCauses, details := t.details
            firstCause := t.firstCause })
    ∧ (∀ (s : State) (i : Fin 448) (r : Record) (ms : Nat), DeferredSound s → PausedSound s →
        recordAt s i = some r → r.state = .pulling → r.phase = some ms →
        ∃ t, exec (.pullTimerExpiry i) s = .next t
          ∧ recordAt t i = some { r with
              state := .speaking, phase := none
              charge := if (rankAt s r.rank).hold = 0 then 1 else (rankAt s r.rank).hold }
          ∧ (∀ c, HoldsClaim t c ↔ HoldsClaim s c)
          ∧ (∃ u, (∀ j, recordAt u j = if j = i.val then recordAt t i else recordAt s j)
            ∧ (let k := (rankAt s r.rank).rail
              let held := if (rankAt s r.rank).hold = 0 then 1 else (rankAt s r.rank).hold
              (∀ m, m < 4 → railAt u m =
                if m = k then { railAt s m with draw := (railAt s m).draw + held - r.charge } else railAt s m)
              ∧ t = if (railAt u k).draw < (railAt s k).draw then allocatorWork u k else u)
            ∧ u = { s with table := u.table, rails := u.rails })
          ∧ t = { s with table := t.table, rails := t.rails, counters := t.counters })

/-- A settle timer's expiry frees a record whose list is empty, takes a STRIKE record with claims and no restrike
pending to STRUCK, and makes an admission request for every other, with restrike pending cleared. In QUIESCING the one
that leaves the table empty, with every enabled link having served, completes the quiesce: CONFIG, every link IDLE
with miss count 0, and QUIESCED raised; and else the relay stays in QUIESCING. -/
def Obligations.SettleExpiryFreesOrAsksAgain : Prop :=
  ∀ (s : State) (i : Fin 448) (r : Record) (ms : Nat), recordAt s i = some r → r.state = .settling →
    r.phase = some ms →
    let lastOne := (∀ j, j ≠ i.val → recordAt s j = none)
      ∧ ∀ l, l < 4 → (linkAt s l).entry.enabled = false ∨ (linkAt s l).served = true
    (r.claims = [] →
        ∃ t, exec (.settleTimerExpiry i) s = .next t ∧ recordAt t i = none
          ∧ (∀ j, j ≠ i.val → recordAt t j = recordAt s j)
          ∧ (s.mode ≠ .quiescing ∨ ¬ lastOne → t = { s with table := t.table, rails := t.rails })
          ∧ (s.mode = .quiescing → lastOne →
              t.mode = .config ∧ tableEmpty t = true
                ∧ (∀ l, l < 4 → (linkAt t l).state = .idle ∧ (linkAt t l).miss = 0 ∧ (linkAt t l).flight = .free)
                ∧ t.pendingCauses.getLsbD 11 = true ∧ look t.details 11 .none = .none))
    ∧ (r.claims ≠ [] → r.kind = .strike → r.restrike = false →
        exec (.settleTimerExpiry i) s =
          .next (setRecord s i (some { r with state := .struck, phase := none })))
    ∧ (r.claims ≠ [] → (r.kind ≠ .strike ∨ r.restrike = true) →
        exec (.settleTimerExpiry i) s =
          .next (admissionRequest (setRecord s i (some { r with restrike := false, phase := none })) i))

/-- A strike timer's expiry. On a rank with a minimum off time a STRIKE record enters SETTLING whatever its list, and a
REITERATE record with an empty list or restrike pending enters SETTLING with the flag cleared. On a rank without one the
settle outcome comes in the same step: freed on an empty list, STRUCK for a STRIKE record with no restrike pending, and
otherwise an admission request. A REITERATE record with claims and no restrike pending enters RESTING with its cycle
timer running on, or takes the outcome of a held cycle expiry. The draw falls by the charge, and where it falls the
allocator does its work on the rail, before any outcome of the same step (log 9, the model's reading). In QUIESCING the expiry that frees the last record, with
every enabled link having served, completes the quiesce; in every other case the mode stands. -/
def Obligations.StrikeExpiryEndsThePulse : Prop :=
  ∀ (s : State) (i : Fin 448) (r : Record) (ms : Nat), DeferredSound s → PausedSound s → recordAt s i = some r →
    r.state = .striking → r.phase = some ms →
    let lastOne := (∀ j, j ≠ i.val → recordAt s j = none)
      ∧ ∀ l, l < 4 → (linkAt s l).entry.enabled = false ∨ (linkAt s l).served = true
    ∃ t, exec (.strikeTimerExpiry i) s = .next t
      ∧ ((rankAt s r.rank).minOff ≠ 0 → r.kind = .strike →
          recordAt t i = some { r with
            state := .settling, charge := 0, phase := some (rankAt s r.rank).minOff, cycle := none, cycleHeld := false
            protection := none })
      ∧ ((rankAt s r.rank).minOff ≠ 0 → r.kind = .reiterate → (r.claims = [] ∨ r.restrike = true) →
          recordAt t i = some { r with
            state := .settling, charge := 0, phase := some (rankAt s r.rank).minOff, cycle := none, cycleHeld := false
            protection := none, restrike := false })
      ∧ ((rankAt s r.rank).minOff = 0 → r.claims = [] → (r.kind = .strike ∨ r.kind = .reiterate) →
          recordAt t i = none
          ∧ (s.mode = .quiescing → lastOne →
              t.mode = .config ∧ t.pendingCauses.getLsbD 11 = true ∧ look t.details 11 .none = .none)
          ∧ (s.mode ≠ .quiescing ∨ ¬ lastOne → t.mode = s.mode ∧ t.links = s.links))
      ∧ ((rankAt s r.rank).minOff = 0 → r.claims ≠ [] → r.kind = .strike → r.restrike = false →
          recordAt t i = some { r with
            state := .struck, charge := 0, phase := none, cycle := none, cycleHeld := false, protection := none })
      ∧ ((rankAt s r.rank).minOff = 0 → r.claims ≠ [] → (r.kind = .strike ∨ r.kind = .reiterate) → r.restrike = true →
          ∃ x, recordAt t i = some x ∧ x.claims = r.claims ∧ x.restrike = false
            ∧ (x.state = .striking ∨ x.state = .waiting))
      ∧ (r.kind = .reiterate → r.claims ≠ [] → r.restrike = false → r.cycleHeld = false →
          recordAt t i = some { r with state := .resting, charge := 0, phase := none })
      ∧ (r.kind = .reiterate → r.claims ≠ [] → r.restrike = false → r.cycleHeld = true →
          ∃ x, recordAt t i = some x ∧ x.claims = r.claims ∧ x.cycleHeld = false
            ∧ (x.state = .striking ∨ x.state = .waiting ∨ (x.state = .resting ∧ x.paused = true ∧ x.cycle = none)))
      ∧ (let k := (rankAt s r.rank).rail
        let off := (rankAt s r.rank).minOff
        let rests := r.kind = .reiterate ∧ r.claims ≠ [] ∧ r.restrike = false
        let resting := { r with state := .resting, charge := 0, phase := none, cycleHeld := false }
        let settling := { r with
          state := .settling, charge := 0, phase := some off, cycle := none, cycleHeld := false, protection := none
          restrike := if r.kind = .reiterate then false else r.restrike }
        ∃ u w, (rests → recordAt u i = some resting) ∧ (¬ rests → recordAt u i = some settling)
          ∧ (∀ j, j ≠ i.val → recordAt u j = recordAt s j)
          ∧ (∀ m, m < 4 → railAt u m =
              if m = k then { railAt s m with draw := (railAt s m).draw - r.charge } else railAt s m)
          ∧ u = { s with table := u.table, rails := u.rails }
          ∧ w = (if (railAt u k).draw < (railAt s k).draw then allocatorWork u k else u)
          ∧ (rests → r.cycleHeld = false → t = w)
          ∧ (rests → r.cycleHeld = true → (railAt w k).strained = true →
              t = setRecord w i (some { resting with cycle := none, paused := true }))
          ∧ (rests → r.cycleHeld = true → (railAt w k).strained = false →
              t = admissionRequest (setRecord w i (some { resting with cycle := none })) i)
          ∧ (¬ rests → off ≠ 0 → t = w)
          ∧ (¬ rests → off = 0 → r.claims ≠ [] → r.kind = .strike → r.restrike = false →
              t = setRecord w i (some { settling with state := .struck, phase := none }))
          ∧ (¬ rests → off = 0 → r.claims ≠ [] → (r.kind ≠ .strike ∨ r.restrike = true) →
              t = admissionRequest (setRecord w i (some { settling with restrike := false, phase := none })) i)
          ∧ (¬ rests → off = 0 → r.claims = [] →
              (∀ j, j ≠ i.val → recordAt t j = recordAt w j) ∧ t.rails = w.rails ∧ t.counters = w.counters))
      ∧ (r.claims ≠ [] ∨ (rankAt s r.rank).minOff ≠ 0 → t.mode = s.mode ∧ t.links = s.links)

/-- A cycle timer's expiry in RESTING asks for the next stroke on a NORMAL rail and pauses the record on a STRAINED
one, where it stays in RESTING with no timer running; in STRIKING it is held for the strike's expiry, and the cycle
timer stands at 0. A protection timer's expiry locks a PULLING or SPEAKING record: its charge goes to 0, its claims stay
in their order and no other claim comes or goes, the lockout is counted and MAGNET_PROTECT raised with the record's
index. The draw falls by the charge the record held, and where it falls the allocator does its work on the rail. -/
def Obligations.CycleAndProtectionExpiries : Prop :=
  (∀ (s : State) (i : Fin 448) (r : Record) (ms : Nat), recordAt s i = some r → r.kind = .reiterate →
      r.cycle = some ms →
      (r.state = .resting → (railAt s (rankAt s r.rank).rail).strained = true →
          exec (.cycleTimerExpiry i) s =
            .next (setRecord s i (some { r with cycle := none, cycleHeld := false, paused := true })))
      ∧ (r.state = .resting → (railAt s (rankAt s r.rank).rail).strained = false →
          exec (.cycleTimerExpiry i) s =
            .next (admissionRequest (setRecord s i (some { r with cycle := none, cycleHeld := false })) i))
      ∧ (r.state = .striking →
          exec (.cycleTimerExpiry i) s =
            .next (setRecord s i (some { r with cycle := some 0, cycleHeld := true }))))
    ∧ (∀ (s : State) (i : Fin 448) (r : Record) (ms : Nat), DeferredSound s → PausedSound s →
        recordAt s i = some r → (r.state = .pulling ∨ r.state = .speaking) → r.protection = some ms →
        ∃ t, exec (.protectionTimerExpiry i) s = .next t
          ∧ recordAt t i = some { r with state := .locked, charge := 0, phase := none, protection := none }
          ∧ counterAt t .lockouts = countUp (counterAt s .lockouts)
          ∧ t.pendingCauses.getLsbD 3 = true ∧ look t.details 3 .none = .number i.val
          ∧ (∀ c, HoldsClaim t c ↔ HoldsClaim s c)
          ∧ ∃ v u, (∀ j, recordAt v j = if j = i.val then recordAt t i else recordAt s j)
            ∧ (let k := (rankAt s r.rank).rail
              (∀ m, m < 4 → railAt v m =
                if m = k then { railAt s m with draw := (railAt s m).draw - r.charge } else railAt s m)
              ∧ t = if (railAt u k).draw < (railAt s k).draw then allocatorWork u k else u)
            ∧ v = { s with table := v.table, rails := v.rails }
            ∧ u = raise (bump v .lockouts) .magnetProtect (.number i.val))

/-- A record's timers move nothing but the sounding table, the rails, the counters and attention, in every mode but for
the settle and strike expiries, which in QUIESCING may complete the quiesce. The model's choice (log 4): an expiry at a
FREE index changes nothing. -/
def Obligations.RecordTimersKeepTheirFrame : Prop :=
  (∀ (s t : State) (i : Fin 448),
      (exec (.waitTimerExpiry i) s = .next t ∨ exec (.pullTimerExpiry i) s = .next t
          ∨ exec (.cycleTimerExpiry i) s = .next t ∨ exec (.protectionTimerExpiry i) s = .next t
          ∨ (s.mode ≠ .quiescing
            ∧ (exec (.settleTimerExpiry i) s = .next t ∨ exec (.strikeTimerExpiry i) s = .next t))) →
      t = { s with
        table := t.table, rails := t.rails, counters := t.counters, pendingCauses := t.pendingCauses
        details := t.details, firstCause := t.firstCause })
    ∧ (∀ (s : State) (i : Fin 448), recordAt s i = none → s.mode ≠ .quiescing →
        exec (.waitTimerExpiry i) s = .next s ∧ exec (.pullTimerExpiry i) s = .next s
          ∧ exec (.settleTimerExpiry i) s = .next s ∧ exec (.strikeTimerExpiry i) s = .next s
          ∧ exec (.cycleTimerExpiry i) s = .next s ∧ exec (.protectionTimerExpiry i) s = .next s)

/-! ### The chamber links -/

/-- A bit of a link's image is on exactly when its position is carried, its outlet demanded, matched by no enabled mute
window, and not in the fault set. -/
def Obligations.ImageBitIsDemandedAndNotHeldOff : Prop :=
  ∀ (s : State) (l pos : Nat), pos < 768 →
    ((outputImage s l).getLsbD pos = true ↔
      pos < (linkAt s l).entry.slots * 16
      ∧ l * 1024 + pos ∉ s.faults
      ∧ (∀ w, w ∈ s.mutes.toList → w.enabled = true →
          ∃ b, b < 12 ∧ w.mask.getLsbD b = false
            ∧ (BitVec.ofNat 12 (l * 1024 + pos)).getLsbD b ≠ w.base.getLsbD b)
      ∧ ((∃ i r, recordAt s i = some r ∧ (rankAt s r.rank).link = l
            ∧ (r.state = .pulling ∨ r.state = .speaking ∨ r.state = .striking)
            ∧ pos = (rankAt s r.rank).slot * 16 + (rankAt s r.rank).bit + r.pipe)
        ∨ (∃ q slot bit, q < 64 ∧ (rankAt s q).kind ≠ .unused ∧ (rankAt s q).link = l
            ∧ (rankAt s q).damper = some (slot, bit) ∧ pos = slot * 16 + bit
            ∧ ∃ i r, recordAt s i = some r ∧ r.rank = q ∧ r.claims ≠ [])
        ∨ (∃ q, q < 64 ∧ (rankAt s q).kind = .tremulant ∧ (rankAt s q).link = l
            ∧ s.tremulants.getLsbD q = true ∧ pos = (rankAt s q).slot * 16 + (rankAt s q).bit)
        ∨ (s.mode = .run ∧ ∃ e, e < 8 ∧ (exprAt s e).target = .shade ∧ (exprAt s e).link = l
            ∧ (exprAt s e).outSlot * 16 + (exprAt s e).outBit ≤ pos
            ∧ pos < (exprAt s e).outSlot * 16 + (exprAt s e).outBit + (runAt s e).stage)))

/-- A frame begins at a period expiry, at a keep-alive expiry and at a changed image of an ON_DEMAND link: the image is
latched and kept as the last image sent, the mode's timer restarts, and the operation is sending; begun in QUIESCING
with the table empty it is one that serves the quiesce; no other link and nothing else changes. A period expiry in
flight begins no frame but leaves one waiting for the close. When the check slot has gone the counter of frames
sent rises and the reply period opens, and nothing else changes. The model's choices: the start at a changed image
is a step of its own (log 8), and with an unchanged image, or without a frame in flight, nothing happens (log 4). -/
def Obligations.FramesLatchTheImageAndAreCounted : Prop :=
  (∀ (s : State) (l : Fin 4), (linkAt s l).state ≠ .idle →
      let sent (period keepAlive : Option Nat) : State := setLink s l { linkAt s l with
        flight := .sending, latch := outputImage s l, lastSent := outputImage s l, period := period
        keepAlive := keepAlive, startWaits := false, serving := s.mode == .quiescing && tableEmpty s }
      ((linkAt s l).flight = .free → (linkAt s l).served = false →
          (∀ ms, (linkAt s l).entry.mode = .periodic → (linkAt s l).period = some ms →
              exec (.periodTimerExpiry l) s = .next (sent (some (linkAt s l).entry.period) none))
          ∧ (∀ ms, (linkAt s l).entry.mode = .onDemand → (linkAt s l).keepAlive = some ms →
              exec (.keepAliveExpiry l) s = .next (sent none (some (linkAt s l).entry.keepAlive)))
          ∧ ((linkAt s l).entry.mode = .onDemand → outputImage s l ≠ (linkAt s l).lastSent →
              exec (.onDemandFrameStart l) s = .next (sent none (some (linkAt s l).entry.keepAlive)))
          ∧ (outputImage s l = (linkAt s l).lastSent → exec (.onDemandFrameStart l) s = .next s))
      ∧ (∀ ms, (linkAt s l).flight ≠ .free → (linkAt s l).period = some ms →
          exec (.periodTimerExpiry l) s = .next (setLink s l { linkAt s l with period := none, startWaits := true })))
    ∧ (∀ (s : State) (l : Fin 4),
        ((linkAt s l).flight = .sending →
            exec (.frameSent l) s = .next (setLink
              { s with counters := put s.counters (16 + 2 * l.val) (countUp (look s.counters (16 + 2 * l.val) 0)) }
              l { linkAt s l with flight := .reply }))
        ∧ ((linkAt s l).flight ≠ .sending → exec (.frameSent l) s = .next s))

/-- In RUN, and in QUIESCING for a frame that does not serve the quiesce: a missed reply is counted, raises the miss
count to at most 15, takes an UP link at its threshold to DOWN with LINK_DOWN raised, and leaves the fault set; a good
reply sets the miss count to 0, brings a DOWN link back UP, and adds exactly the outlets it reports to the fault set,
raising OUTLET_FAULT for each one added, so that the highest added stands as the detail, and nothing where none
is added. The link's operation is closed either way. At the close a
PERIODIC link's frame that waited for it, and an ON_DEMAND link's frame for an image that differs from the last one
sent, begins in the same step with the image as it then is, and serves the quiesce when it is begun in QUIESCING with
the table empty; and without either the link is free. -/
def Obligations.ReplyMovesMissCountStateAndFaults : Prop :=
  ∀ (s : State) (l : Fin 4) (words : List Word), (linkAt s l).flight = .reply → (linkAt s l).state ≠ .idle →
    s.mode = .run ∨ (s.mode = .quiescing ∧ (linkAt s l).entry.enabled = true ∧ (linkAt s l).serving = false
      ∧ (linkAt s l).served = false) →
    let n := (linkAt s l).entry.slots
    let reported (m : Nat) : Prop :=
      ∃ i b, i < n ∧ b < 16 ∧ (words.getD i 0).getLsbD b = true ∧ m = l.val * 1024 + i * 16 + b
    (words.length < n + 1 ∨ words.getD n 0 ≠ checkWord (words.take n) →
        ∃ t, exec (.replyPeriodClose l words) s = .next t
          ∧ (linkAt t l).miss = min 15 ((linkAt s l).miss + 1)
          ∧ counterAt t (.repliesMissed l.val) = countUp (counterAt s (.repliesMissed l.val))
          ∧ t.faults = s.faults ∧ (linkAt t l).flight ≠ .reply
          ∧ ((linkAt s l).state = .up → (linkAt s l).entry.downThreshold ≤ min 15 ((linkAt s l).miss + 1) →
              (linkAt t l).state = .down ∧ t.pendingCauses.getLsbD 0 = true ∧ look t.details 0 .none = .number l.val)
          ∧ ((linkAt s l).state = .down ∨ min 15 ((linkAt s l).miss + 1) < (linkAt s l).entry.downThreshold →
              (linkAt t l).state = (linkAt s l).state ∧ t.pendingCauses = s.pendingCauses)
          ∧ t.table = s.table ∧ t.rails = s.rails ∧ t.mode = s.mode)
    ∧ (n + 1 ≤ words.length → words.getD n 0 = checkWord (words.take n) →
        ∃ t, exec (.replyPeriodClose l words) s = .next t
          ∧ (linkAt t l).miss = 0 ∧ (linkAt t l).state = .up ∧ (linkAt t l).flight ≠ .reply
          ∧ (∀ m, m ∈ t.faults ↔ m ∈ s.faults ∨ reported m)
          ∧ (∀ m, reported m → m ∉ s.faults → (∀ k, reported k → k ∉ s.faults → k ≤ m) →
              t.pendingCauses.getLsbD 1 = true ∧ look t.details 1 .none = .number m)
          ∧ ((∀ m, reported m → m ∈ s.faults) →
              t.pendingCauses = s.pendingCauses ∧ t.details = s.details ∧ t.firstCause = s.firstCause)
          ∧ (∀ b, b ≠ 1 → t.pendingCauses.getLsbD b = s.pendingCauses.getLsbD b
              ∧ look t.details b .none = look s.details b .none)
          ∧ t.table = s.table ∧ t.rails = s.rails ∧ t.mode = s.mode)
    ∧ ((linkAt s l).serving = false → (linkAt s l).served = false →
        ∃ t, exec (.replyPeriodClose l words) s = .next t
          ∧ (∀ m, m < 4 → m ≠ l.val → linkAt t m = linkAt s m)
          ∧ ((linkAt s l).entry.mode = .periodic → (linkAt s l).startWaits = true →
              (linkAt t l).flight = .sending ∧ (linkAt t l).latch = outputImage t l
                ∧ (linkAt t l).lastSent = outputImage t l ∧ (linkAt t l).startWaits = false
                ∧ (linkAt t l).period = some (linkAt s l).entry.period
                ∧ (linkAt t l).serving = (s.mode == .quiescing && tableEmpty s))
          ∧ ((linkAt s l).entry.mode = .periodic → (linkAt s l).startWaits = false →
              (linkAt t l).flight = .free ∧ (linkAt t l).latch = (linkAt s l).latch
                ∧ (linkAt t l).period = (linkAt s l).period)
          ∧ ((linkAt s l).entry.mode = .onDemand → outputImage t l ≠ (linkAt s l).lastSent →
              (linkAt t l).flight = .sending ∧ (linkAt t l).latch = outputImage t l
                ∧ (linkAt t l).lastSent = outputImage t l
                ∧ (linkAt t l).keepAlive = some (linkAt s l).entry.keepAlive
                ∧ (linkAt t l).serving = (s.mode == .quiescing && tableEmpty s))
          ∧ ((linkAt s l).entry.mode = .onDemand → outputImage t l = (linkAt s l).lastSent →
              (linkAt t l).flight = .free ∧ (linkAt t l).latch = (linkAt s l).latch
                ∧ (linkAt t l).keepAlive = (linkAt s l).keepAlive))

/-- In QUIESCING with the table empty, the reply of a frame that serves the quiesce makes its link one that has served:
free, and beginning no further frame. While another enabled link has not served the relay stays in QUIESCING; the reply
of the last one completes the quiesce: CONFIG, every link IDLE with miss count 0, and QUIESCED raised with no detail. -/
def Obligations.LastServingReplyCompletesTheQuiesce : Prop :=
  ∀ (s : State) (l : Fin 4) (words : List Word), s.mode = .quiescing → tableEmpty s = true →
    (linkAt s l).flight = .reply → (linkAt s l).serving = true →
    ∃ t, exec (.replyPeriodClose l words) s = .next t
      ∧ ((∀ m, m < 4 → m ≠ l.val → (linkAt s m).entry.enabled = false ∨ (linkAt s m).served = true) →
          t.mode = .config ∧ (∀ m, m < 4 → (linkAt t m).state = .idle ∧ (linkAt t m).miss = 0
            ∧ (linkAt t m).flight = .free)
          ∧ t.pendingCauses.getLsbD 11 = true ∧ look t.details 11 .none = .none)
      ∧ (∀ m, m < 4 → m ≠ l.val → (linkAt s m).entry.enabled = true → (linkAt s m).served = false →
          t.mode = .quiescing ∧ (linkAt t l).served = true ∧ (linkAt t l).flight = .free
            ∧ (∀ c, c = .periodTimerExpiry l ∨ c = .keepAliveExpiry l ∨ c = .onDemandFrameStart l → exec c t = .next t))

/-! ### The units by themselves -/

/-- A stop answers a key of its division only within its window, and a VOICE stop with a note in its rank's range
names that pipe; outside the range SILENT is silence; FIXED names its own pipe or, beyond the count, silence. Under
FOLD a note above the range is answered by the pipe of the rank's top twelve notes that lies whole octaves below it,
a note below the range by the pipe of the lowest twelve that lies whole octaves above it, and neither where the rank
has no such pipe; a rank of twelve or more pipes always answers. -/
def Obligations.ResolverFollowsKindsAndFolds : Prop :=
  (∀ (s : State) (d k n : Nat),
      let e := stopAt s n
      let r := rankAt s e.rank
      (e.kind = .unused ∨ e.kind = .tremulant ∨ e.division ≠ d ∨ k < e.windowLow ∨ e.windowHigh < k
          ∨ r.kind = .unused ∨ r.kind = .tremulant → resolve s d k n = none)
      ∧ (e.division = d → e.windowLow ≤ k → k ≤ e.windowHigh →
          (r.kind = .pipe ∨ r.kind = .strike ∨ r.kind = .reiterate ∨ r.kind = .held) →
          (e.kind = .fixed → resolve s d k n = if e.pipe < r.count then some (e.rank, e.pipe) else none)
          ∧ (e.kind = .voice →
              let note : Int := (if d = 0 then 24 else 36) + k + e.offset
              (∀ p : Nat, p < r.count → note = r.low + p → resolve s d k n = some (e.rank, p))
              ∧ (e.breakMode = .silent → (note < r.low ∨ (r.low : Int) + r.count ≤ note) → resolve s d k n = none))))
    ∧ (∀ (s : State) (d k n : Nat),
        let e := stopAt s n
        let r := rankAt s e.rank
        let note : Int := (if d = 0 then 24 else 36) + k + e.offset
        e.kind = .voice → e.breakMode = .fold → e.division = d → e.windowLow ≤ k → k ≤ e.windowHigh →
        (r.kind = .pipe ∨ r.kind = .strike ∨ r.kind = .reiterate ∨ r.kind = .held) →
        ((r.low : Int) + r.count ≤ note → ∀ x, resolve s d k n = some x ↔
            x.1 = e.rank ∧ x.2 < r.count ∧ r.count ≤ x.2 + 12 ∧ (12 : Int) ∣ note - (r.low + x.2))
        ∧ (note < r.low → ∀ x, resolve s d k n = some x ↔
            x.1 = e.rank ∧ x.2 < r.count ∧ x.2 < 12 ∧ (12 : Int) ∣ r.low + x.2 - note)
        ∧ (12 ≤ r.count → (resolve s d k n).isSome = true))

/-- The corrected value is the raw value less the offset, or 0 when the offset exceeds it. The stage of a value is 0 up
to the low limit, the stage count from the high limit, the band between them, never
above the stage count, and never falls as the value rises. The new stage stays where the candidate equals it; it
rises to the stage of the value less the hysteresis and falls to that of the value plus it, or stays if that
would move it the other way; it never passes the candidate, and a hysteresis of 0 makes it the candidate. -/
def Obligations.StagesAreBandedWithHysteresis : Prop :=
  (∀ (e : ExprEntry) (raw : Nat), corrected e raw = if raw < e.offset then 0 else raw - e.offset)
    ∧ (∀ (e : ExprEntry), e.low < e.high →
      (∀ v, v ≤ e.low → stageOf e v = 0)
      ∧ (∀ v, e.high ≤ v → stageOf e v = e.stages)
      ∧ (∀ v, e.low < v → v < e.high → stageOf e v = (v - e.low) * e.stages / (e.high - e.low))
      ∧ (∀ v, stageOf e v ≤ e.stages)
      ∧ (∀ v w, v ≤ w → stageOf e v ≤ stageOf e w))
    ∧ (∀ (e : ExprEntry) (s c : Nat), e.low < e.high →
        (stageOf e c = s → newStage e s c = s)
        ∧ (s < stageOf e c →
            newStage e s c = max s (stageOf e (c - e.hysteresis)) ∧ newStage e s c ≤ stageOf e c)
        ∧ (stageOf e c < s →
            newStage e s c = min s (stageOf e (c + e.hysteresis)) ∧ stageOf e c ≤ newStage e s c)
        ∧ (e.hysteresis = 0 → newStage e s c = stageOf e c))

/-- A shoe read extreme for its fault count of frames running is FAULTED and its stage held, and a FAULTED shoe read in
range for as many is cleared; fewer frames do neither, a frame of the other kind starts the count again, and without
fault detection no value is judged. -/
def Obligations.FaultCheckCountsRuns : Prop :=
  (∀ (e : ExprEntry) (r : ExprRun) (raw : Nat), 1 ≤ e.faultCount → r.runCount < e.faultCount →
      (e.faultDetect = false → faultCheck e r raw = (r, false, false))
      ∧ (e.faultDetect = true → r.faulted = false → (raw = 0 ∨ raw = 4095) → r.runCount + 1 = e.faultCount →
          faultCheck e r raw = ({ r with faulted := true, runCount := 0 }, true, true))
      ∧ (e.faultDetect = true → r.faulted = false → (raw = 0 ∨ raw = 4095) → r.runCount + 1 < e.faultCount →
          faultCheck e r raw = ({ r with runCount := r.runCount + 1 }, false, false))
      ∧ (e.faultDetect = true → r.faulted = false → raw ≠ 0 → raw ≠ 4095 →
          faultCheck e r raw = ({ r with runCount := 0 }, false, false))
      ∧ (e.faultDetect = true → r.faulted = true → (raw = 0 ∨ raw = 4095) →
          faultCheck e r raw = ({ r with runCount := 0 }, true, false))
      ∧ (e.faultDetect = true → r.faulted = true → raw ≠ 0 → raw ≠ 4095 → r.runCount + 1 = e.faultCount →
          faultCheck e r raw = ({ r with faulted := false, runCount := 0 }, false, false))
      ∧ (e.faultDetect = true → r.faulted = true → raw ≠ 0 → raw ≠ 4095 → r.runCount + 1 < e.faultCount →
          faultCheck e r raw = ({ r with runCount := r.runCount + 1 }, true, false)))
    ∧ (∀ (e : ExprEntry) (r : ExprRun) (raws : List Nat), e.faultDetect = true → 1 ≤ e.faultCount →
        r.runCount = 0 → raws.length ≤ e.faultCount →
        let after := raws.foldl (fun x raw => (faultCheck e x raw).1) r
        (r.faulted = false → (∀ raw, raw ∈ raws → raw = 0 ∨ raw = 4095) →
            (after.faulted = true ↔ raws.length = e.faultCount))
        ∧ (r.faulted = true → (∀ raw, raw ∈ raws → raw ≠ 0 ∧ raw ≠ 4095) →
            (after.faulted = false ↔ raws.length = e.faultCount)))

/-- For each frame taken ONLINE the Expression unit works the list from entry 0 up to the first disabled entry: in
order, each entry whose source is the port and whose slot is in the frame and mapped EXPRESSION, on the slot's low
twelve bits. An entry worked keeps the value and goes through the fault check, which raises EXPRESSION_FAULT with
the entry's number; a held stage, and a new stage equal to the current one, change nothing more. A new stage is
stored, and for the enabled CRESCENDO entry it is one change of the effective set. -/
def Obligations.ExpressionWalkWorksEntriesInOrder : Prop :=
  (∀ (s : State) (p : PortId) (data : List Word),
      walk s p data =
        ((List.range 8).takeWhile fun e => (exprAt s e).enabled).foldl
          (fun u e =>
            if (exprAt s e).port = some p ∧ (exprAt s e).slot < (portAt s p).entry.dataSlots
                ∧ (slotAt (portAt s p) (exprAt s e).slot).kind = .expression then
              workEntry u e ((data.getD (exprAt s e).slot 0).toNat % 4096)
            else u)
          s)
    ∧ (∀ (s : State) (e raw : Nat), e < 8 →
        let run := { runAt s e with lastValue := raw }
        let checked := faultCheck (exprAt s e) run raw
        let stage := newStage (exprAt s e) run.stage (corrected (exprAt s e) raw)
        (checked.2.2 = true →
            workEntry s e raw = raise { s with runs := put s.runs e checked.1 } .expressionFault (.number e))
        ∧ (checked.2.2 = false → checked.2.1 = true ∨ stage = run.stage →
            workEntry s e raw = { s with runs := put s.runs e checked.1 })
        ∧ (checked.2.1 = false → stage ≠ run.stage →
            let moved := { s with runs := put s.runs e { checked.1 with stage := stage } }
            ((exprAt s e).enabled = false ∨ (exprAt s e).target ≠ .crescendo → workEntry s e raw = moved)
            ∧ ((exprAt s e).enabled = true → (exprAt s e).target = .crescendo →
                workEntry s e raw = changeEffective true (effectiveSet s) moved)))

/-! ### Transactions and invariants -/

/-- A transaction that a well-formed command is sent in is read back as that command, with every parameter at every
value. UNKNOWN_REQUEST carries, beside the codes of no request, the codes 11, 50 and 81 of no table, item or form, which
is the model's choice (log 13); and a transaction with no byte at all is void by its choice too (log 21). -/
def Obligations.TransactionsReadBackAsTheirCommand : Prop :=
  ∀ (c : Instr) (bytes : List Byte), c.wellFormed = true → encodeTransaction c = some bytes →
    decodeTransaction bytes = c

/-- Every step keeps the sounding table's invariant: at most one record for a rank and pipe, and claim lists of at most
twelve claims, each identity once. -/
def Obligations.StepKeepsTableSound : Prop :=
  ∀ s t : State, TableSound s → step s = .next t → TableSound t

/-- Every step keeps what the mode rules out: outside RUN the ports are at rest and the tremulants off, and in CONFIG
the table is empty and every link IDLE. -/
def Obligations.StepKeepsModeSound : Prop :=
  ∀ s t : State, ModeSound s → step s = .next t → ModeSound t

/-- Every step keeps each rail's draw the sum of the charges of its records. -/
def Obligations.StepKeepsDrawTheSumOfCharges : Prop :=
  ∀ s t : State, ModeSound s → DrawSound s → step s = .next t → DrawSound t

/-- Every step keeps the fault set ascending and of valid outlets, the dirty list within its bound and without repeats,
and the levels, miss counts and tally in their ranges. -/
def Obligations.StepKeepsListsAndCountsInRange : Prop :=
  ∀ s t : State, FaultsSound s → DirtySound s → CountsBounded s → step s = .next t →
    FaultsSound t ∧ DirtySound t ∧ CountsBounded t

/-- Every step keeps the standing outputs of the tremulants in step with the stops: in RUN a rank's output is on exactly
when the rank is TREMULANT and some effective TREMULANT stop names it, and at most one enabled entry has target
CRESCENDO. -/
def Obligations.StepKeepsTremulantsWithTheirStops : Prop :=
  ∀ s t : State, RegistrationSound s → step s = .next t → RegistrationSound t

/-- Every step keeps each rail's deferred list the indexes of its WAITING records, each once, the draw within the
capacity, and pauses with RESTING REITERATE records; and every record keeps the kind of its rank and, while PULLING, a
charge not below its rank's hold charge. -/
def Obligations.StepKeepsDeferredListsAndCapacity : Prop :=
  ∀ s t : State, ModeSound s → DrawSound s → SupplySound s → step s = .next t → SupplySound t

/-- The invariants hold at reset. -/
def Obligations.ResetHasTheInvariants : Prop :=
  TableSound State.reset ∧ ModeSound State.reset ∧ DrawSound State.reset ∧ FaultsSound State.reset
    ∧ DirtySound State.reset ∧ CountsBounded State.reset ∧ RegistrationSound State.reset ∧ SupplySound State.reset
    ∧ State.reset.pending = []
end

