-- ==== Sys2Proof/Laws/State.lean ====
section
/-! SUPPORT. What each update of one unit does to each field of the state, so that no proof unfolds a record update. -/

namespace Sys2Proof.Machine

/-! ### setRail -/

@[simp] theorem setRail_ranks (s : State) (k : Nat) (r : Rail) : (setRail s k r).ranks = s.ranks := rfl
@[simp] theorem setRail_stops (s : State) (k : Nat) (r : Rail) : (setRail s k r).stops = s.stops := rfl
@[simp] theorem setRail_grants (s : State) (k : Nat) (r : Rail) : (setRail s k r).grants = s.grants := rfl
@[simp] theorem setRail_drawn (s : State) (k : Nat) (r : Rail) : (setRail s k r).drawn = s.drawn := rfl
@[simp] theorem setRail_tremulants (s : State) (k : Nat) (r : Rail) : (setRail s k r).tremulants = s.tremulants := rfl
@[simp] theorem setRail_combination (s : State) (k : Nat) (r : Rail) : (setRail s k r).combination = s.combination := rfl
@[simp] theorem setRail_dirty (s : State) (k : Nat) (r : Rail) : (setRail s k r).dirty = s.dirty := rfl
@[simp] theorem setRail_dirtyOverflow (s : State) (k : Nat) (r : Rail) : (setRail s k r).dirtyOverflow = s.dirtyOverflow := rfl
@[simp] theorem setRail_expression (s : State) (k : Nat) (r : Rail) : (setRail s k r).expression = s.expression := rfl
@[simp] theorem setRail_runs (s : State) (k : Nat) (r : Rail) : (setRail s k r).runs = s.runs := rfl
@[simp] theorem setRail_crescendo (s : State) (k : Nat) (r : Rail) : (setRail s k r).crescendo = s.crescendo := rfl
@[simp] theorem setRail_table (s : State) (k : Nat) (r : Rail) : (setRail s k r).table = s.table := rfl
@[simp] theorem setRail_rails (s : State) (k : Nat) (r : Rail) : (setRail s k r).rails = put s.rails k r := rfl
@[simp] theorem setRail_portA (s : State) (k : Nat) (r : Rail) : (setRail s k r).portA = s.portA := rfl
@[simp] theorem setRail_portB (s : State) (k : Nat) (r : Rail) : (setRail s k r).portB = s.portB := rfl
@[simp] theorem setRail_links (s : State) (k : Nat) (r : Rail) : (setRail s k r).links = s.links := rfl
@[simp] theorem setRail_mutes (s : State) (k : Nat) (r : Rail) : (setRail s k r).mutes = s.mutes := rfl
@[simp] theorem setRail_faults (s : State) (k : Nat) (r : Rail) : (setRail s k r).faults = s.faults := rfl
@[simp] theorem setRail_resetLine (s : State) (k : Nat) (r : Rail) : (setRail s k r).resetLine = s.resetLine := rfl
@[simp] theorem setRail_mode (s : State) (k : Nat) (r : Rail) : (setRail s k r).mode = s.mode := rfl
@[simp] theorem setRail_response (s : State) (k : Nat) (r : Rail) : (setRail s k r).response = s.response := rfl
@[simp] theorem setRail_discardTally (s : State) (k : Nat) (r : Rail) : (setRail s k r).discardTally = s.discardTally := rfl
@[simp] theorem setRail_dataOut (s : State) (k : Nat) (r : Rail) : (setRail s k r).dataOut = s.dataOut := rfl
@[simp] theorem setRail_pendingCauses (s : State) (k : Nat) (r : Rail) : (setRail s k r).pendingCauses = s.pendingCauses := rfl
@[simp] theorem setRail_enabledCauses (s : State) (k : Nat) (r : Rail) : (setRail s k r).enabledCauses = s.enabledCauses := rfl
@[simp] theorem setRail_details (s : State) (k : Nat) (r : Rail) : (setRail s k r).details = s.details := rfl
@[simp] theorem setRail_firstCause (s : State) (k : Nat) (r : Rail) : (setRail s k r).firstCause = s.firstCause := rfl
@[simp] theorem setRail_counters (s : State) (k : Nat) (r : Rail) : (setRail s k r).counters = s.counters := rfl
@[simp] theorem setRail_pending (s : State) (k : Nat) (r : Rail) : (setRail s k r).pending = s.pending := rfl
@[simp] theorem setRail_choices (s : State) (k : Nat) (r : Rail) : (setRail s k r).choices = s.choices := rfl

/-! ### setLink -/

@[simp] theorem setLink_ranks (s : State) (l : Nat) (x : Link) : (setLink s l x).ranks = s.ranks := rfl
@[simp] theorem setLink_stops (s : State) (l : Nat) (x : Link) : (setLink s l x).stops = s.stops := rfl
@[simp] theorem setLink_grants (s : State) (l : Nat) (x : Link) : (setLink s l x).grants = s.grants := rfl
@[simp] theorem setLink_drawn (s : State) (l : Nat) (x : Link) : (setLink s l x).drawn = s.drawn := rfl
@[simp] theorem setLink_tremulants (s : State) (l : Nat) (x : Link) : (setLink s l x).tremulants = s.tremulants := rfl
@[simp] theorem setLink_combination (s : State) (l : Nat) (x : Link) : (setLink s l x).combination = s.combination := rfl
@[simp] theorem setLink_dirty (s : State) (l : Nat) (x : Link) : (setLink s l x).dirty = s.dirty := rfl
@[simp] theorem setLink_dirtyOverflow (s : State) (l : Nat) (x : Link) : (setLink s l x).dirtyOverflow = s.dirtyOverflow := rfl
@[simp] theorem setLink_expression (s : State) (l : Nat) (x : Link) : (setLink s l x).expression = s.expression := rfl
@[simp] theorem setLink_runs (s : State) (l : Nat) (x : Link) : (setLink s l x).runs = s.runs := rfl
@[simp] theorem setLink_crescendo (s : State) (l : Nat) (x : Link) : (setLink s l x).crescendo = s.crescendo := rfl
@[simp] theorem setLink_table (s : State) (l : Nat) (x : Link) : (setLink s l x).table = s.table := rfl
@[simp] theorem setLink_rails (s : State) (l : Nat) (x : Link) : (setLink s l x).rails = s.rails := rfl
@[simp] theorem setLink_portA (s : State) (l : Nat) (x : Link) : (setLink s l x).portA = s.portA := rfl
@[simp] theorem setLink_portB (s : State) (l : Nat) (x : Link) : (setLink s l x).portB = s.portB := rfl
@[simp] theorem setLink_links (s : State) (l : Nat) (x : Link) : (setLink s l x).links = put s.links l x := rfl
@[simp] theorem setLink_mutes (s : State) (l : Nat) (x : Link) : (setLink s l x).mutes = s.mutes := rfl
@[simp] theorem setLink_faults (s : State) (l : Nat) (x : Link) : (setLink s l x).faults = s.faults := rfl
@[simp] theorem setLink_resetLine (s : State) (l : Nat) (x : Link) : (setLink s l x).resetLine = s.resetLine := rfl
@[simp] theorem setLink_mode (s : State) (l : Nat) (x : Link) : (setLink s l x).mode = s.mode := rfl
@[simp] theorem setLink_response (s : State) (l : Nat) (x : Link) : (setLink s l x).response = s.response := rfl
@[simp] theorem setLink_discardTally (s : State) (l : Nat) (x : Link) : (setLink s l x).discardTally = s.discardTally := rfl
@[simp] theorem setLink_dataOut (s : State) (l : Nat) (x : Link) : (setLink s l x).dataOut = s.dataOut := rfl
@[simp] theorem setLink_pendingCauses (s : State) (l : Nat) (x : Link) : (setLink s l x).pendingCauses = s.pendingCauses := rfl
@[simp] theorem setLink_enabledCauses (s : State) (l : Nat) (x : Link) : (setLink s l x).enabledCauses = s.enabledCauses := rfl
@[simp] theorem setLink_details (s : State) (l : Nat) (x : Link) : (setLink s l x).details = s.details := rfl
@[simp] theorem setLink_firstCause (s : State) (l : Nat) (x : Link) : (setLink s l x).firstCause = s.firstCause := rfl
@[simp] theorem setLink_counters (s : State) (l : Nat) (x : Link) : (setLink s l x).counters = s.counters := rfl
@[simp] theorem setLink_pending (s : State) (l : Nat) (x : Link) : (setLink s l x).pending = s.pending := rfl
@[simp] theorem setLink_choices (s : State) (l : Nat) (x : Link) : (setLink s l x).choices = s.choices := rfl

/-! ### setRecord -/

@[simp] theorem setRecord_ranks (s : State) (i : Nat) (r : Option Record) : (setRecord s i r).ranks = s.ranks := rfl
@[simp] theorem setRecord_stops (s : State) (i : Nat) (r : Option Record) : (setRecord s i r).stops = s.stops := rfl
@[simp] theorem setRecord_grants (s : State) (i : Nat) (r : Option Record) : (setRecord s i r).grants = s.grants := rfl
@[simp] theorem setRecord_drawn (s : State) (i : Nat) (r : Option Record) : (setRecord s i r).drawn = s.drawn := rfl
@[simp] theorem setRecord_tremulants (s : State) (i : Nat) (r : Option Record) : (setRecord s i r).tremulants = s.tremulants := rfl
@[simp] theorem setRecord_combination (s : State) (i : Nat) (r : Option Record) : (setRecord s i r).combination = s.combination := rfl
@[simp] theorem setRecord_dirty (s : State) (i : Nat) (r : Option Record) : (setRecord s i r).dirty = s.dirty := rfl
@[simp] theorem setRecord_dirtyOverflow (s : State) (i : Nat) (r : Option Record) : (setRecord s i r).dirtyOverflow = s.dirtyOverflow := rfl
@[simp] theorem setRecord_expression (s : State) (i : Nat) (r : Option Record) : (setRecord s i r).expression = s.expression := rfl
@[simp] theorem setRecord_runs (s : State) (i : Nat) (r : Option Record) : (setRecord s i r).runs = s.runs := rfl
@[simp] theorem setRecord_crescendo (s : State) (i : Nat) (r : Option Record) : (setRecord s i r).crescendo = s.crescendo := rfl
@[simp] theorem setRecord_table (s : State) (i : Nat) (r : Option Record) : (setRecord s i r).table = put s.table i r := rfl
@[simp] theorem setRecord_rails (s : State) (i : Nat) (r : Option Record) : (setRecord s i r).rails = s.rails := rfl
@[simp] theorem setRecord_portA (s : State) (i : Nat) (r : Option Record) : (setRecord s i r).portA = s.portA := rfl
@[simp] theorem setRecord_portB (s : State) (i : Nat) (r : Option Record) : (setRecord s i r).portB = s.portB := rfl
@[simp] theorem setRecord_links (s : State) (i : Nat) (r : Option Record) : (setRecord s i r).links = s.links := rfl
@[simp] theorem setRecord_mutes (s : State) (i : Nat) (r : Option Record) : (setRecord s i r).mutes = s.mutes := rfl
@[simp] theorem setRecord_faults (s : State) (i : Nat) (r : Option Record) : (setRecord s i r).faults = s.faults := rfl
@[simp] theorem setRecord_resetLine (s : State) (i : Nat) (r : Option Record) : (setRecord s i r).resetLine = s.resetLine := rfl
@[simp] theorem setRecord_mode (s : State) (i : Nat) (r : Option Record) : (setRecord s i r).mode = s.mode := rfl
@[simp] theorem setRecord_response (s : State) (i : Nat) (r : Option Record) : (setRecord s i r).response = s.response := rfl
@[simp] theorem setRecord_discardTally (s : State) (i : Nat) (r : Option Record) : (setRecord s i r).discardTally = s.discardTally := rfl
@[simp] theorem setRecord_dataOut (s : State) (i : Nat) (r : Option Record) : (setRecord s i r).dataOut = s.dataOut := rfl
@[simp] theorem setRecord_pendingCauses (s : State) (i : Nat) (r : Option Record) : (setRecord s i r).pendingCauses = s.pendingCauses := rfl
@[simp] theorem setRecord_enabledCauses (s : State) (i : Nat) (r : Option Record) : (setRecord s i r).enabledCauses = s.enabledCauses := rfl
@[simp] theorem setRecord_details (s : State) (i : Nat) (r : Option Record) : (setRecord s i r).details = s.details := rfl
@[simp] theorem setRecord_firstCause (s : State) (i : Nat) (r : Option Record) : (setRecord s i r).firstCause = s.firstCause := rfl
@[simp] theorem setRecord_counters (s : State) (i : Nat) (r : Option Record) : (setRecord s i r).counters = s.counters := rfl
@[simp] theorem setRecord_pending (s : State) (i : Nat) (r : Option Record) : (setRecord s i r).pending = s.pending := rfl
@[simp] theorem setRecord_choices (s : State) (i : Nat) (r : Option Record) : (setRecord s i r).choices = s.choices := rfl

/-! ### setRun -/

@[simp] theorem setRun_ranks (s : State) (e : Nat) (r : ExprRun) : (setRun s e r).ranks = s.ranks := rfl
@[simp] theorem setRun_stops (s : State) (e : Nat) (r : ExprRun) : (setRun s e r).stops = s.stops := rfl
@[simp] theorem setRun_grants (s : State) (e : Nat) (r : ExprRun) : (setRun s e r).grants = s.grants := rfl
@[simp] theorem setRun_drawn (s : State) (e : Nat) (r : ExprRun) : (setRun s e r).drawn = s.drawn := rfl
@[simp] theorem setRun_tremulants (s : State) (e : Nat) (r : ExprRun) : (setRun s e r).tremulants = s.tremulants := rfl
@[simp] theorem setRun_combination (s : State) (e : Nat) (r : ExprRun) : (setRun s e r).combination = s.combination := rfl
@[simp] theorem setRun_dirty (s : State) (e : Nat) (r : ExprRun) : (setRun s e r).dirty = s.dirty := rfl
@[simp] theorem setRun_dirtyOverflow (s : State) (e : Nat) (r : ExprRun) : (setRun s e r).dirtyOverflow = s.dirtyOverflow := rfl
@[simp] theorem setRun_expression (s : State) (e : Nat) (r : ExprRun) : (setRun s e r).expression = s.expression := rfl
@[simp] theorem setRun_runs (s : State) (e : Nat) (r : ExprRun) : (setRun s e r).runs = put s.runs e r := rfl
@[simp] theorem setRun_crescendo (s : State) (e : Nat) (r : ExprRun) : (setRun s e r).crescendo = s.crescendo := rfl
@[simp] theorem setRun_table (s : State) (e : Nat) (r : ExprRun) : (setRun s e r).table = s.table := rfl
@[simp] theorem setRun_rails (s : State) (e : Nat) (r : ExprRun) : (setRun s e r).rails = s.rails := rfl
@[simp] theorem setRun_portA (s : State) (e : Nat) (r : ExprRun) : (setRun s e r).portA = s.portA := rfl
@[simp] theorem setRun_portB (s : State) (e : Nat) (r : ExprRun) : (setRun s e r).portB = s.portB := rfl
@[simp] theorem setRun_links (s : State) (e : Nat) (r : ExprRun) : (setRun s e r).links = s.links := rfl
@[simp] theorem setRun_mutes (s : State) (e : Nat) (r : ExprRun) : (setRun s e r).mutes = s.mutes := rfl
@[simp] theorem setRun_faults (s : State) (e : Nat) (r : ExprRun) : (setRun s e r).faults = s.faults := rfl
@[simp] theorem setRun_resetLine (s : State) (e : Nat) (r : ExprRun) : (setRun s e r).resetLine = s.resetLine := rfl
@[simp] theorem setRun_mode (s : State) (e : Nat) (r : ExprRun) : (setRun s e r).mode = s.mode := rfl
@[simp] theorem setRun_response (s : State) (e : Nat) (r : ExprRun) : (setRun s e r).response = s.response := rfl
@[simp] theorem setRun_discardTally (s : State) (e : Nat) (r : ExprRun) : (setRun s e r).discardTally = s.discardTally := rfl
@[simp] theorem setRun_dataOut (s : State) (e : Nat) (r : ExprRun) : (setRun s e r).dataOut = s.dataOut := rfl
@[simp] theorem setRun_pendingCauses (s : State) (e : Nat) (r : ExprRun) : (setRun s e r).pendingCauses = s.pendingCauses := rfl
@[simp] theorem setRun_enabledCauses (s : State) (e : Nat) (r : ExprRun) : (setRun s e r).enabledCauses = s.enabledCauses := rfl
@[simp] theorem setRun_details (s : State) (e : Nat) (r : ExprRun) : (setRun s e r).details = s.details := rfl
@[simp] theorem setRun_firstCause (s : State) (e : Nat) (r : ExprRun) : (setRun s e r).firstCause = s.firstCause := rfl
@[simp] theorem setRun_counters (s : State) (e : Nat) (r : ExprRun) : (setRun s e r).counters = s.counters := rfl
@[simp] theorem setRun_pending (s : State) (e : Nat) (r : ExprRun) : (setRun s e r).pending = s.pending := rfl
@[simp] theorem setRun_choices (s : State) (e : Nat) (r : ExprRun) : (setRun s e r).choices = s.choices := rfl

/-! ### setDrawn -/

@[simp] theorem setDrawn_ranks (s : State) (x : StopSet) : (setDrawn s x).ranks = s.ranks := rfl
@[simp] theorem setDrawn_stops (s : State) (x : StopSet) : (setDrawn s x).stops = s.stops := rfl
@[simp] theorem setDrawn_grants (s : State) (x : StopSet) : (setDrawn s x).grants = s.grants := rfl
@[simp] theorem setDrawn_drawn (s : State) (x : StopSet) : (setDrawn s x).drawn = x := rfl
@[simp] theorem setDrawn_tremulants (s : State) (x : StopSet) : (setDrawn s x).tremulants = s.tremulants := rfl
@[simp] theorem setDrawn_combination (s : State) (x : StopSet) : (setDrawn s x).combination = s.combination := rfl
@[simp] theorem setDrawn_dirty (s : State) (x : StopSet) : (setDrawn s x).dirty = s.dirty := rfl
@[simp] theorem setDrawn_dirtyOverflow (s : State) (x : StopSet) : (setDrawn s x).dirtyOverflow = s.dirtyOverflow := rfl
@[simp] theorem setDrawn_expression (s : State) (x : StopSet) : (setDrawn s x).expression = s.expression := rfl
@[simp] theorem setDrawn_runs (s : State) (x : StopSet) : (setDrawn s x).runs = s.runs := rfl
@[simp] theorem setDrawn_crescendo (s : State) (x : StopSet) : (setDrawn s x).crescendo = s.crescendo := rfl
@[simp] theorem setDrawn_table (s : State) (x : StopSet) : (setDrawn s x).table = s.table := rfl
@[simp] theorem setDrawn_rails (s : State) (x : StopSet) : (setDrawn s x).rails = s.rails := rfl
@[simp] theorem setDrawn_portA (s : State) (x : StopSet) : (setDrawn s x).portA = s.portA := rfl
@[simp] theorem setDrawn_portB (s : State) (x : StopSet) : (setDrawn s x).portB = s.portB := rfl
@[simp] theorem setDrawn_links (s : State) (x : StopSet) : (setDrawn s x).links = s.links := rfl
@[simp] theorem setDrawn_mutes (s : State) (x : StopSet) : (setDrawn s x).mutes = s.mutes := rfl
@[simp] theorem setDrawn_faults (s : State) (x : StopSet) : (setDrawn s x).faults = s.faults := rfl
@[simp] theorem setDrawn_resetLine (s : State) (x : StopSet) : (setDrawn s x).resetLine = s.resetLine := rfl
@[simp] theorem setDrawn_mode (s : State) (x : StopSet) : (setDrawn s x).mode = s.mode := rfl
@[simp] theorem setDrawn_response (s : State) (x : StopSet) : (setDrawn s x).response = s.response := rfl
@[simp] theorem setDrawn_discardTally (s : State) (x : StopSet) : (setDrawn s x).discardTally = s.discardTally := rfl
@[simp] theorem setDrawn_dataOut (s : State) (x : StopSet) : (setDrawn s x).dataOut = s.dataOut := rfl
@[simp] theorem setDrawn_pendingCauses (s : State) (x : StopSet) : (setDrawn s x).pendingCauses = s.pendingCauses := rfl
@[simp] theorem setDrawn_enabledCauses (s : State) (x : StopSet) : (setDrawn s x).enabledCauses = s.enabledCauses := rfl
@[simp] theorem setDrawn_details (s : State) (x : StopSet) : (setDrawn s x).details = s.details := rfl
@[simp] theorem setDrawn_firstCause (s : State) (x : StopSet) : (setDrawn s x).firstCause = s.firstCause := rfl
@[simp] theorem setDrawn_counters (s : State) (x : StopSet) : (setDrawn s x).counters = s.counters := rfl
@[simp] theorem setDrawn_pending (s : State) (x : StopSet) : (setDrawn s x).pending = s.pending := rfl
@[simp] theorem setDrawn_choices (s : State) (x : StopSet) : (setDrawn s x).choices = s.choices := rfl

/-! ### setTremulant -/

@[simp] theorem setTremulant_ranks (s : State) (r : Nat) (on : Bool) : (setTremulant s r on).ranks = s.ranks := rfl
@[simp] theorem setTremulant_stops (s : State) (r : Nat) (on : Bool) : (setTremulant s r on).stops = s.stops := rfl
@[simp] theorem setTremulant_grants (s : State) (r : Nat) (on : Bool) : (setTremulant s r on).grants = s.grants := rfl
@[simp] theorem setTremulant_drawn (s : State) (r : Nat) (on : Bool) : (setTremulant s r on).drawn = s.drawn := rfl
@[simp] theorem setTremulant_tremulants (s : State) (r : Nat) (on : Bool) : (setTremulant s r on).tremulants = withBit s.tremulants r on := rfl
@[simp] theorem setTremulant_combination (s : State) (r : Nat) (on : Bool) : (setTremulant s r on).combination = s.combination := rfl
@[simp] theorem setTremulant_dirty (s : State) (r : Nat) (on : Bool) : (setTremulant s r on).dirty = s.dirty := rfl
@[simp] theorem setTremulant_dirtyOverflow (s : State) (r : Nat) (on : Bool) : (setTremulant s r on).dirtyOverflow = s.dirtyOverflow := rfl
@[simp] theorem setTremulant_expression (s : State) (r : Nat) (on : Bool) : (setTremulant s r on).expression = s.expression := rfl
@[simp] theorem setTremulant_runs (s : State) (r : Nat) (on : Bool) : (setTremulant s r on).runs = s.runs := rfl
@[simp] theorem setTremulant_crescendo (s : State) (r : Nat) (on : Bool) : (setTremulant s r on).crescendo = s.crescendo := rfl
@[simp] theorem setTremulant_table (s : State) (r : Nat) (on : Bool) : (setTremulant s r on).table = s.table := rfl
@[simp] theorem setTremulant_rails (s : State) (r : Nat) (on : Bool) : (setTremulant s r on).rails = s.rails := rfl
@[simp] theorem setTremulant_portA (s : State) (r : Nat) (on : Bool) : (setTremulant s r on).portA = s.portA := rfl
@[simp] theorem setTremulant_portB (s : State) (r : Nat) (on : Bool) : (setTremulant s r on).portB = s.portB := rfl
@[simp] theorem setTremulant_links (s : State) (r : Nat) (on : Bool) : (setTremulant s r on).links = s.links := rfl
@[simp] theorem setTremulant_mutes (s : State) (r : Nat) (on : Bool) : (setTremulant s r on).mutes = s.mutes := rfl
@[simp] theorem setTremulant_faults (s : State) (r : Nat) (on : Bool) : (setTremulant s r on).faults = s.faults := rfl
@[simp] theorem setTremulant_resetLine (s : State) (r : Nat) (on : Bool) : (setTremulant s r on).resetLine = s.resetLine := rfl
@[simp] theorem setTremulant_mode (s : State) (r : Nat) (on : Bool) : (setTremulant s r on).mode = s.mode := rfl
@[simp] theorem setTremulant_response (s : State) (r : Nat) (on : Bool) : (setTremulant s r on).response = s.response := rfl
@[simp] theorem setTremulant_discardTally (s : State) (r : Nat) (on : Bool) : (setTremulant s r on).discardTally = s.discardTally := rfl
@[simp] theorem setTremulant_dataOut (s : State) (r : Nat) (on : Bool) : (setTremulant s r on).dataOut = s.dataOut := rfl
@[simp] theorem setTremulant_pendingCauses (s : State) (r : Nat) (on : Bool) : (setTremulant s r on).pendingCauses = s.pendingCauses := rfl
@[simp] theorem setTremulant_enabledCauses (s : State) (r : Nat) (on : Bool) : (setTremulant s r on).enabledCauses = s.enabledCauses := rfl
@[simp] theorem setTremulant_details (s : State) (r : Nat) (on : Bool) : (setTremulant s r on).details = s.details := rfl
@[simp] theorem setTremulant_firstCause (s : State) (r : Nat) (on : Bool) : (setTremulant s r on).firstCause = s.firstCause := rfl
@[simp] theorem setTremulant_counters (s : State) (r : Nat) (on : Bool) : (setTremulant s r on).counters = s.counters := rfl
@[simp] theorem setTremulant_pending (s : State) (r : Nat) (on : Bool) : (setTremulant s r on).pending = s.pending := rfl
@[simp] theorem setTremulant_choices (s : State) (r : Nat) (on : Bool) : (setTremulant s r on).choices = s.choices := rfl

/-! ### setStop -/

@[simp] theorem setStop_ranks (s : State) (n : Nat) (e : StopEntry) : (setStop s n e).ranks = s.ranks := rfl
@[simp] theorem setStop_stops (s : State) (n : Nat) (e : StopEntry) : (setStop s n e).stops = put s.stops n e := rfl
@[simp] theorem setStop_grants (s : State) (n : Nat) (e : StopEntry) : (setStop s n e).grants = s.grants := rfl
@[simp] theorem setStop_drawn (s : State) (n : Nat) (e : StopEntry) : (setStop s n e).drawn = s.drawn := rfl
@[simp] theorem setStop_tremulants (s : State) (n : Nat) (e : StopEntry) : (setStop s n e).tremulants = s.tremulants := rfl
@[simp] theorem setStop_combination (s : State) (n : Nat) (e : StopEntry) : (setStop s n e).combination = s.combination := rfl
@[simp] theorem setStop_dirty (s : State) (n : Nat) (e : StopEntry) : (setStop s n e).dirty = s.dirty := rfl
@[simp] theorem setStop_dirtyOverflow (s : State) (n : Nat) (e : StopEntry) : (setStop s n e).dirtyOverflow = s.dirtyOverflow := rfl
@[simp] theorem setStop_expression (s : State) (n : Nat) (e : StopEntry) : (setStop s n e).expression = s.expression := rfl
@[simp] theorem setStop_runs (s : State) (n : Nat) (e : StopEntry) : (setStop s n e).runs = s.runs := rfl
@[simp] theorem setStop_crescendo (s : State) (n : Nat) (e : StopEntry) : (setStop s n e).crescendo = s.crescendo := rfl
@[simp] theorem setStop_table (s : State) (n : Nat) (e : StopEntry) : (setStop s n e).table = s.table := rfl
@[simp] theorem setStop_rails (s : State) (n : Nat) (e : StopEntry) : (setStop s n e).rails = s.rails := rfl
@[simp] theorem setStop_portA (s : State) (n : Nat) (e : StopEntry) : (setStop s n e).portA = s.portA := rfl
@[simp] theorem setStop_portB (s : State) (n : Nat) (e : StopEntry) : (setStop s n e).portB = s.portB := rfl
@[simp] theorem setStop_links (s : State) (n : Nat) (e : StopEntry) : (setStop s n e).links = s.links := rfl
@[simp] theorem setStop_mutes (s : State) (n : Nat) (e : StopEntry) : (setStop s n e).mutes = s.mutes := rfl
@[simp] theorem setStop_faults (s : State) (n : Nat) (e : StopEntry) : (setStop s n e).faults = s.faults := rfl
@[simp] theorem setStop_resetLine (s : State) (n : Nat) (e : StopEntry) : (setStop s n e).resetLine = s.resetLine := rfl
@[simp] theorem setStop_mode (s : State) (n : Nat) (e : StopEntry) : (setStop s n e).mode = s.mode := rfl
@[simp] theorem setStop_response (s : State) (n : Nat) (e : StopEntry) : (setStop s n e).response = s.response := rfl
@[simp] theorem setStop_discardTally (s : State) (n : Nat) (e : StopEntry) : (setStop s n e).discardTally = s.discardTally := rfl
@[simp] theorem setStop_dataOut (s : State) (n : Nat) (e : StopEntry) : (setStop s n e).dataOut = s.dataOut := rfl
@[simp] theorem setStop_pendingCauses (s : State) (n : Nat) (e : StopEntry) : (setStop s n e).pendingCauses = s.pendingCauses := rfl
@[simp] theorem setStop_enabledCauses (s : State) (n : Nat) (e : StopEntry) : (setStop s n e).enabledCauses = s.enabledCauses := rfl
@[simp] theorem setStop_details (s : State) (n : Nat) (e : StopEntry) : (setStop s n e).details = s.details := rfl
@[simp] theorem setStop_firstCause (s : State) (n : Nat) (e : StopEntry) : (setStop s n e).firstCause = s.firstCause := rfl
@[simp] theorem setStop_counters (s : State) (n : Nat) (e : StopEntry) : (setStop s n e).counters = s.counters := rfl
@[simp] theorem setStop_pending (s : State) (n : Nat) (e : StopEntry) : (setStop s n e).pending = s.pending := rfl
@[simp] theorem setStop_choices (s : State) (n : Nat) (e : StopEntry) : (setStop s n e).choices = s.choices := rfl

/-! ### setMode -/

@[simp] theorem setMode_ranks (s : State) (m : Mode) : (setMode s m).ranks = s.ranks := rfl
@[simp] theorem setMode_stops (s : State) (m : Mode) : (setMode s m).stops = s.stops := rfl
@[simp] theorem setMode_grants (s : State) (m : Mode) : (setMode s m).grants = s.grants := rfl
@[simp] theorem setMode_drawn (s : State) (m : Mode) : (setMode s m).drawn = s.drawn := rfl
@[simp] theorem setMode_tremulants (s : State) (m : Mode) : (setMode s m).tremulants = s.tremulants := rfl
@[simp] theorem setMode_combination (s : State) (m : Mode) : (setMode s m).combination = s.combination := rfl
@[simp] theorem setMode_dirty (s : State) (m : Mode) : (setMode s m).dirty = s.dirty := rfl
@[simp] theorem setMode_dirtyOverflow (s : State) (m : Mode) : (setMode s m).dirtyOverflow = s.dirtyOverflow := rfl
@[simp] theorem setMode_expression (s : State) (m : Mode) : (setMode s m).expression = s.expression := rfl
@[simp] theorem setMode_runs (s : State) (m : Mode) : (setMode s m).runs = s.runs := rfl
@[simp] theorem setMode_crescendo (s : State) (m : Mode) : (setMode s m).crescendo = s.crescendo := rfl
@[simp] theorem setMode_table (s : State) (m : Mode) : (setMode s m).table = s.table := rfl
@[simp] theorem setMode_rails (s : State) (m : Mode) : (setMode s m).rails = s.rails := rfl
@[simp] theorem setMode_portA (s : State) (m : Mode) : (setMode s m).portA = s.portA := rfl
@[simp] theorem setMode_portB (s : State) (m : Mode) : (setMode s m).portB = s.portB := rfl
@[simp] theorem setMode_links (s : State) (m : Mode) : (setMode s m).links = s.links := rfl
@[simp] theorem setMode_mutes (s : State) (m : Mode) : (setMode s m).mutes = s.mutes := rfl
@[simp] theorem setMode_faults (s : State) (m : Mode) : (setMode s m).faults = s.faults := rfl
@[simp] theorem setMode_resetLine (s : State) (m : Mode) : (setMode s m).resetLine = s.resetLine := rfl
@[simp] theorem setMode_mode (s : State) (m : Mode) : (setMode s m).mode = m := rfl
@[simp] theorem setMode_response (s : State) (m : Mode) : (setMode s m).response = s.response := rfl
@[simp] theorem setMode_discardTally (s : State) (m : Mode) : (setMode s m).discardTally = s.discardTally := rfl
@[simp] theorem setMode_dataOut (s : State) (m : Mode) : (setMode s m).dataOut = s.dataOut := rfl
@[simp] theorem setMode_pendingCauses (s : State) (m : Mode) : (setMode s m).pendingCauses = s.pendingCauses := rfl
@[simp] theorem setMode_enabledCauses (s : State) (m : Mode) : (setMode s m).enabledCauses = s.enabledCauses := rfl
@[simp] theorem setMode_details (s : State) (m : Mode) : (setMode s m).details = s.details := rfl
@[simp] theorem setMode_firstCause (s : State) (m : Mode) : (setMode s m).firstCause = s.firstCause := rfl
@[simp] theorem setMode_counters (s : State) (m : Mode) : (setMode s m).counters = s.counters := rfl
@[simp] theorem setMode_pending (s : State) (m : Mode) : (setMode s m).pending = s.pending := rfl
@[simp] theorem setMode_choices (s : State) (m : Mode) : (setMode s m).choices = s.choices := rfl

/-! ### setCombination -/

@[simp] theorem setCombination_ranks (s : State) (v c : Nat) (x : StopSet) : (setCombination s v c x).ranks = s.ranks := rfl
@[simp] theorem setCombination_stops (s : State) (v c : Nat) (x : StopSet) : (setCombination s v c x).stops = s.stops := rfl
@[simp] theorem setCombination_grants (s : State) (v c : Nat) (x : StopSet) : (setCombination s v c x).grants = s.grants := rfl
@[simp] theorem setCombination_drawn (s : State) (v c : Nat) (x : StopSet) : (setCombination s v c x).drawn = s.drawn := rfl
@[simp] theorem setCombination_tremulants (s : State) (v c : Nat) (x : StopSet) : (setCombination s v c x).tremulants = s.tremulants := rfl
@[simp] theorem setCombination_combination (s : State) (v c : Nat) (x : StopSet) : (setCombination s v c x).combination = put s.combination (40 * v + c) x := rfl
@[simp] theorem setCombination_dirty (s : State) (v c : Nat) (x : StopSet) : (setCombination s v c x).dirty = s.dirty := rfl
@[simp] theorem setCombination_dirtyOverflow (s : State) (v c : Nat) (x : StopSet) : (setCombination s v c x).dirtyOverflow = s.dirtyOverflow := rfl
@[simp] theorem setCombination_expression (s : State) (v c : Nat) (x : StopSet) : (setCombination s v c x).expression = s.expression := rfl
@[simp] theorem setCombination_runs (s : State) (v c : Nat) (x : StopSet) : (setCombination s v c x).runs = s.runs := rfl
@[simp] theorem setCombination_crescendo (s : State) (v c : Nat) (x : StopSet) : (setCombination s v c x).crescendo = s.crescendo := rfl
@[simp] theorem setCombination_table (s : State) (v c : Nat) (x : StopSet) : (setCombination s v c x).table = s.table := rfl
@[simp] theorem setCombination_rails (s : State) (v c : Nat) (x : StopSet) : (setCombination s v c x).rails = s.rails := rfl
@[simp] theorem setCombination_portA (s : State) (v c : Nat) (x : StopSet) : (setCombination s v c x).portA = s.portA := rfl
@[simp] theorem setCombination_portB (s : State) (v c : Nat) (x : StopSet) : (setCombination s v c x).portB = s.portB := rfl
@[simp] theorem setCombination_links (s : State) (v c : Nat) (x : StopSet) : (setCombination s v c x).links = s.links := rfl
@[simp] theorem setCombination_mutes (s : State) (v c : Nat) (x : StopSet) : (setCombination s v c x).mutes = s.mutes := rfl
@[simp] theorem setCombination_faults (s : State) (v c : Nat) (x : StopSet) : (setCombination s v c x).faults = s.faults := rfl
@[simp] theorem setCombination_resetLine (s : State) (v c : Nat) (x : StopSet) : (setCombination s v c x).resetLine = s.resetLine := rfl
@[simp] theorem setCombination_mode (s : State) (v c : Nat) (x : StopSet) : (setCombination s v c x).mode = s.mode := rfl
@[simp] theorem setCombination_response (s : State) (v c : Nat) (x : StopSet) : (setCombination s v c x).response = s.response := rfl
@[simp] theorem setCombination_discardTally (s : State) (v c : Nat) (x : StopSet) : (setCombination s v c x).discardTally = s.discardTally := rfl
@[simp] theorem setCombination_dataOut (s : State) (v c : Nat) (x : StopSet) : (setCombination s v c x).dataOut = s.dataOut := rfl
@[simp] theorem setCombination_pendingCauses (s : State) (v c : Nat) (x : StopSet) : (setCombination s v c x).pendingCauses = s.pendingCauses := rfl
@[simp] theorem setCombination_enabledCauses (s : State) (v c : Nat) (x : StopSet) : (setCombination s v c x).enabledCauses = s.enabledCauses := rfl
@[simp] theorem setCombination_details (s : State) (v c : Nat) (x : StopSet) : (setCombination s v c x).details = s.details := rfl
@[simp] theorem setCombination_firstCause (s : State) (v c : Nat) (x : StopSet) : (setCombination s v c x).firstCause = s.firstCause := rfl
@[simp] theorem setCombination_counters (s : State) (v c : Nat) (x : StopSet) : (setCombination s v c x).counters = s.counters := rfl
@[simp] theorem setCombination_pending (s : State) (v c : Nat) (x : StopSet) : (setCombination s v c x).pending = s.pending := rfl
@[simp] theorem setCombination_choices (s : State) (v c : Nat) (x : StopSet) : (setCombination s v c x).choices = s.choices := rfl

/-! ### setCrescendo -/

@[simp] theorem setCrescendo_ranks (s : State) (n : Nat) (x : StopSet) : (setCrescendo s n x).ranks = s.ranks := rfl
@[simp] theorem setCrescendo_stops (s : State) (n : Nat) (x : StopSet) : (setCrescendo s n x).stops = s.stops := rfl
@[simp] theorem setCrescendo_grants (s : State) (n : Nat) (x : StopSet) : (setCrescendo s n x).grants = s.grants := rfl
@[simp] theorem setCrescendo_drawn (s : State) (n : Nat) (x : StopSet) : (setCrescendo s n x).drawn = s.drawn := rfl
@[simp] theorem setCrescendo_tremulants (s : State) (n : Nat) (x : StopSet) : (setCrescendo s n x).tremulants = s.tremulants := rfl
@[simp] theorem setCrescendo_combination (s : State) (n : Nat) (x : StopSet) : (setCrescendo s n x).combination = s.combination := rfl
@[simp] theorem setCrescendo_dirty (s : State) (n : Nat) (x : StopSet) : (setCrescendo s n x).dirty = s.dirty := rfl
@[simp] theorem setCrescendo_dirtyOverflow (s : State) (n : Nat) (x : StopSet) : (setCrescendo s n x).dirtyOverflow = s.dirtyOverflow := rfl
@[simp] theorem setCrescendo_expression (s : State) (n : Nat) (x : StopSet) : (setCrescendo s n x).expression = s.expression := rfl
@[simp] theorem setCrescendo_runs (s : State) (n : Nat) (x : StopSet) : (setCrescendo s n x).runs = s.runs := rfl
@[simp] theorem setCrescendo_crescendo (s : State) (n : Nat) (x : StopSet) : (setCrescendo s n x).crescendo = put s.crescendo (n - 1) x := rfl
@[simp] theorem setCrescendo_table (s : State) (n : Nat) (x : StopSet) : (setCrescendo s n x).table = s.table := rfl
@[simp] theorem setCrescendo_rails (s : State) (n : Nat) (x : StopSet) : (setCrescendo s n x).rails = s.rails := rfl
@[simp] theorem setCrescendo_portA (s : State) (n : Nat) (x : StopSet) : (setCrescendo s n x).portA = s.portA := rfl
@[simp] theorem setCrescendo_portB (s : State) (n : Nat) (x : StopSet) : (setCrescendo s n x).portB = s.portB := rfl
@[simp] theorem setCrescendo_links (s : State) (n : Nat) (x : StopSet) : (setCrescendo s n x).links = s.links := rfl
@[simp] theorem setCrescendo_mutes (s : State) (n : Nat) (x : StopSet) : (setCrescendo s n x).mutes = s.mutes := rfl
@[simp] theorem setCrescendo_faults (s : State) (n : Nat) (x : StopSet) : (setCrescendo s n x).faults = s.faults := rfl
@[simp] theorem setCrescendo_resetLine (s : State) (n : Nat) (x : StopSet) : (setCrescendo s n x).resetLine = s.resetLine := rfl
@[simp] theorem setCrescendo_mode (s : State) (n : Nat) (x : StopSet) : (setCrescendo s n x).mode = s.mode := rfl
@[simp] theorem setCrescendo_response (s : State) (n : Nat) (x : StopSet) : (setCrescendo s n x).response = s.response := rfl
@[simp] theorem setCrescendo_discardTally (s : State) (n : Nat) (x : StopSet) : (setCrescendo s n x).discardTally = s.discardTally := rfl
@[simp] theorem setCrescendo_dataOut (s : State) (n : Nat) (x : StopSet) : (setCrescendo s n x).dataOut = s.dataOut := rfl
@[simp] theorem setCrescendo_pendingCauses (s : State) (n : Nat) (x : StopSet) : (setCrescendo s n x).pendingCauses = s.pendingCauses := rfl
@[simp] theorem setCrescendo_enabledCauses (s : State) (n : Nat) (x : StopSet) : (setCrescendo s n x).enabledCauses = s.enabledCauses := rfl
@[simp] theorem setCrescendo_details (s : State) (n : Nat) (x : StopSet) : (setCrescendo s n x).details = s.details := rfl
@[simp] theorem setCrescendo_firstCause (s : State) (n : Nat) (x : StopSet) : (setCrescendo s n x).firstCause = s.firstCause := rfl
@[simp] theorem setCrescendo_counters (s : State) (n : Nat) (x : StopSet) : (setCrescendo s n x).counters = s.counters := rfl
@[simp] theorem setCrescendo_pending (s : State) (n : Nat) (x : StopSet) : (setCrescendo s n x).pending = s.pending := rfl
@[simp] theorem setCrescendo_choices (s : State) (n : Nat) (x : StopSet) : (setCrescendo s n x).choices = s.choices := rfl

/-! ### bump -/

@[simp] theorem bump_ranks (s : State) (c : Counter) : (bump s c).ranks = s.ranks := rfl
@[simp] theorem bump_stops (s : State) (c : Counter) : (bump s c).stops = s.stops := rfl
@[simp] theorem bump_grants (s : State) (c : Counter) : (bump s c).grants = s.grants := rfl
@[simp] theorem bump_drawn (s : State) (c : Counter) : (bump s c).drawn = s.drawn := rfl
@[simp] theorem bump_tremulants (s : State) (c : Counter) : (bump s c).tremulants = s.tremulants := rfl
@[simp] theorem bump_combination (s : State) (c : Counter) : (bump s c).combination = s.combination := rfl
@[simp] theorem bump_dirty (s : State) (c : Counter) : (bump s c).dirty = s.dirty := rfl
@[simp] theorem bump_dirtyOverflow (s : State) (c : Counter) : (bump s c).dirtyOverflow = s.dirtyOverflow := rfl
@[simp] theorem bump_expression (s : State) (c : Counter) : (bump s c).expression = s.expression := rfl
@[simp] theorem bump_runs (s : State) (c : Counter) : (bump s c).runs = s.runs := rfl
@[simp] theorem bump_crescendo (s : State) (c : Counter) : (bump s c).crescendo = s.crescendo := rfl
@[simp] theorem bump_table (s : State) (c : Counter) : (bump s c).table = s.table := rfl
@[simp] theorem bump_rails (s : State) (c : Counter) : (bump s c).rails = s.rails := rfl
@[simp] theorem bump_portA (s : State) (c : Counter) : (bump s c).portA = s.portA := rfl
@[simp] theorem bump_portB (s : State) (c : Counter) : (bump s c).portB = s.portB := rfl
@[simp] theorem bump_links (s : State) (c : Counter) : (bump s c).links = s.links := rfl
@[simp] theorem bump_mutes (s : State) (c : Counter) : (bump s c).mutes = s.mutes := rfl
@[simp] theorem bump_faults (s : State) (c : Counter) : (bump s c).faults = s.faults := rfl
@[simp] theorem bump_resetLine (s : State) (c : Counter) : (bump s c).resetLine = s.resetLine := rfl
@[simp] theorem bump_mode (s : State) (c : Counter) : (bump s c).mode = s.mode := rfl
@[simp] theorem bump_response (s : State) (c : Counter) : (bump s c).response = s.response := rfl
@[simp] theorem bump_discardTally (s : State) (c : Counter) : (bump s c).discardTally = s.discardTally := rfl
@[simp] theorem bump_dataOut (s : State) (c : Counter) : (bump s c).dataOut = s.dataOut := rfl
@[simp] theorem bump_pendingCauses (s : State) (c : Counter) : (bump s c).pendingCauses = s.pendingCauses := rfl
@[simp] theorem bump_enabledCauses (s : State) (c : Counter) : (bump s c).enabledCauses = s.enabledCauses := rfl
@[simp] theorem bump_details (s : State) (c : Counter) : (bump s c).details = s.details := rfl
@[simp] theorem bump_firstCause (s : State) (c : Counter) : (bump s c).firstCause = s.firstCause := rfl
@[simp] theorem bump_counters (s : State) (c : Counter) : (bump s c).counters = put s.counters (Counter.place c) (countUp (counterAt s c)) := rfl
@[simp] theorem bump_pending (s : State) (c : Counter) : (bump s c).pending = s.pending := rfl
@[simp] theorem bump_choices (s : State) (c : Counter) : (bump s c).choices = s.choices := rfl

/-! ### raise -/

@[simp] theorem raise_ranks (s : State) (c : Cause) (d : Detail) : (raise s c d).ranks = s.ranks := rfl
@[simp] theorem raise_stops (s : State) (c : Cause) (d : Detail) : (raise s c d).stops = s.stops := rfl
@[simp] theorem raise_grants (s : State) (c : Cause) (d : Detail) : (raise s c d).grants = s.grants := rfl
@[simp] theorem raise_drawn (s : State) (c : Cause) (d : Detail) : (raise s c d).drawn = s.drawn := rfl
@[simp] theorem raise_tremulants (s : State) (c : Cause) (d : Detail) : (raise s c d).tremulants = s.tremulants := rfl
@[simp] theorem raise_combination (s : State) (c : Cause) (d : Detail) : (raise s c d).combination = s.combination := rfl
@[simp] theorem raise_dirty (s : State) (c : Cause) (d : Detail) : (raise s c d).dirty = s.dirty := rfl
@[simp] theorem raise_dirtyOverflow (s : State) (c : Cause) (d : Detail) : (raise s c d).dirtyOverflow = s.dirtyOverflow := rfl
@[simp] theorem raise_expression (s : State) (c : Cause) (d : Detail) : (raise s c d).expression = s.expression := rfl
@[simp] theorem raise_runs (s : State) (c : Cause) (d : Detail) : (raise s c d).runs = s.runs := rfl
@[simp] theorem raise_crescendo (s : State) (c : Cause) (d : Detail) : (raise s c d).crescendo = s.crescendo := rfl
@[simp] theorem raise_table (s : State) (c : Cause) (d : Detail) : (raise s c d).table = s.table := rfl
@[simp] theorem raise_rails (s : State) (c : Cause) (d : Detail) : (raise s c d).rails = s.rails := rfl
@[simp] theorem raise_portA (s : State) (c : Cause) (d : Detail) : (raise s c d).portA = s.portA := rfl
@[simp] theorem raise_portB (s : State) (c : Cause) (d : Detail) : (raise s c d).portB = s.portB := rfl
@[simp] theorem raise_links (s : State) (c : Cause) (d : Detail) : (raise s c d).links = s.links := rfl
@[simp] theorem raise_mutes (s : State) (c : Cause) (d : Detail) : (raise s c d).mutes = s.mutes := rfl
@[simp] theorem raise_faults (s : State) (c : Cause) (d : Detail) : (raise s c d).faults = s.faults := rfl
@[simp] theorem raise_resetLine (s : State) (c : Cause) (d : Detail) : (raise s c d).resetLine = s.resetLine := rfl
@[simp] theorem raise_mode (s : State) (c : Cause) (d : Detail) : (raise s c d).mode = s.mode := rfl
@[simp] theorem raise_response (s : State) (c : Cause) (d : Detail) : (raise s c d).response = s.response := rfl
@[simp] theorem raise_discardTally (s : State) (c : Cause) (d : Detail) : (raise s c d).discardTally = s.discardTally := rfl
@[simp] theorem raise_dataOut (s : State) (c : Cause) (d : Detail) : (raise s c d).dataOut = s.dataOut := rfl
@[simp] theorem raise_pendingCauses (s : State) (c : Cause) (d : Detail) : (raise s c d).pendingCauses = withBit s.pendingCauses (Cause.bit c) true := rfl
@[simp] theorem raise_enabledCauses (s : State) (c : Cause) (d : Detail) : (raise s c d).enabledCauses = s.enabledCauses := rfl
@[simp] theorem raise_details (s : State) (c : Cause) (d : Detail) : (raise s c d).details = put s.details (Cause.bit c) d := rfl
@[simp] theorem raise_counters (s : State) (c : Cause) (d : Detail) : (raise s c d).counters = s.counters := rfl
@[simp] theorem raise_pending (s : State) (c : Cause) (d : Detail) : (raise s c d).pending = s.pending := rfl
@[simp] theorem raise_choices (s : State) (c : Cause) (d : Detail) : (raise s c d).choices = s.choices := rfl

/-! ### setPort -/

@[simp] theorem setPort_ranks (s : State) (p : PortId) (c : ConsolePort) : (setPort s p c).ranks = s.ranks := by cases p <;> rfl
@[simp] theorem setPort_stops (s : State) (p : PortId) (c : ConsolePort) : (setPort s p c).stops = s.stops := by cases p <;> rfl
@[simp] theorem setPort_grants (s : State) (p : PortId) (c : ConsolePort) : (setPort s p c).grants = s.grants := by cases p <;> rfl
@[simp] theorem setPort_drawn (s : State) (p : PortId) (c : ConsolePort) : (setPort s p c).drawn = s.drawn := by cases p <;> rfl
@[simp] theorem setPort_tremulants (s : State) (p : PortId) (c : ConsolePort) : (setPort s p c).tremulants = s.tremulants := by cases p <;> rfl
@[simp] theorem setPort_combination (s : State) (p : PortId) (c : ConsolePort) : (setPort s p c).combination = s.combination := by cases p <;> rfl
@[simp] theorem setPort_dirty (s : State) (p : PortId) (c : ConsolePort) : (setPort s p c).dirty = s.dirty := by cases p <;> rfl
@[simp] theorem setPort_dirtyOverflow (s : State) (p : PortId) (c : ConsolePort) : (setPort s p c).dirtyOverflow = s.dirtyOverflow := by cases p <;> rfl
@[simp] theorem setPort_expression (s : State) (p : PortId) (c : ConsolePort) : (setPort s p c).expression = s.expression := by cases p <;> rfl
@[simp] theorem setPort_runs (s : State) (p : PortId) (c : ConsolePort) : (setPort s p c).runs = s.runs := by cases p <;> rfl
@[simp] theorem setPort_crescendo (s : State) (p : PortId) (c : ConsolePort) : (setPort s p c).crescendo = s.crescendo := by cases p <;> rfl
@[simp] theorem setPort_table (s : State) (p : PortId) (c : ConsolePort) : (setPort s p c).table = s.table := by cases p <;> rfl
@[simp] theorem setPort_rails (s : State) (p : PortId) (c : ConsolePort) : (setPort s p c).rails = s.rails := by cases p <;> rfl
@[simp] theorem setPort_links (s : State) (p : PortId) (c : ConsolePort) : (setPort s p c).links = s.links := by cases p <;> rfl
@[simp] theorem setPort_mutes (s : State) (p : PortId) (c : ConsolePort) : (setPort s p c).mutes = s.mutes := by cases p <;> rfl
@[simp] theorem setPort_faults (s : State) (p : PortId) (c : ConsolePort) : (setPort s p c).faults = s.faults := by cases p <;> rfl
@[simp] theorem setPort_resetLine (s : State) (p : PortId) (c : ConsolePort) : (setPort s p c).resetLine = s.resetLine := by cases p <;> rfl
@[simp] theorem setPort_mode (s : State) (p : PortId) (c : ConsolePort) : (setPort s p c).mode = s.mode := by cases p <;> rfl
@[simp] theorem setPort_response (s : State) (p : PortId) (c : ConsolePort) : (setPort s p c).response = s.response := by cases p <;> rfl
@[simp] theorem setPort_discardTally (s : State) (p : PortId) (c : ConsolePort) : (setPort s p c).discardTally = s.discardTally := by cases p <;> rfl
@[simp] theorem setPort_dataOut (s : State) (p : PortId) (c : ConsolePort) : (setPort s p c).dataOut = s.dataOut := by cases p <;> rfl
@[simp] theorem setPort_pendingCauses (s : State) (p : PortId) (c : ConsolePort) : (setPort s p c).pendingCauses = s.pendingCauses := by cases p <;> rfl
@[simp] theorem setPort_enabledCauses (s : State) (p : PortId) (c : ConsolePort) : (setPort s p c).enabledCauses = s.enabledCauses := by cases p <;> rfl
@[simp] theorem setPort_details (s : State) (p : PortId) (c : ConsolePort) : (setPort s p c).details = s.details := by cases p <;> rfl
@[simp] theorem setPort_firstCause (s : State) (p : PortId) (c : ConsolePort) : (setPort s p c).firstCause = s.firstCause := by cases p <;> rfl
@[simp] theorem setPort_counters (s : State) (p : PortId) (c : ConsolePort) : (setPort s p c).counters = s.counters := by cases p <;> rfl
@[simp] theorem setPort_pending (s : State) (p : PortId) (c : ConsolePort) : (setPort s p c).pending = s.pending := by cases p <;> rfl
@[simp] theorem setPort_choices (s : State) (p : PortId) (c : ConsolePort) : (setPort s p c).choices = s.choices := by cases p <;> rfl

end Sys2Proof.Machine
end

