-- ==== Sys2Proof/Laws/Access.lean ====
section
/-! SUPPORT. What each update of one unit leaves of each unit read by its number. -/

namespace Sys2Proof.Machine

/-! ### rankAt -/

@[simp] theorem rankAt_setRail (s : State) (k : Nat) (r : Rail) (q : Nat) : rankAt (setRail s k r) q = rankAt s q := rfl
@[simp] theorem rankAt_setLink (s : State) (l : Nat) (x : Link) (q : Nat) : rankAt (setLink s l x) q = rankAt s q := rfl
@[simp] theorem rankAt_setRecord (s : State) (i : Nat) (r : Option Record) (q : Nat) : rankAt (setRecord s i r) q = rankAt s q := rfl
@[simp] theorem rankAt_setRun (s : State) (e : Nat) (r : ExprRun) (q : Nat) : rankAt (setRun s e r) q = rankAt s q := rfl
@[simp] theorem rankAt_setDrawn (s : State) (x : StopSet) (q : Nat) : rankAt (setDrawn s x) q = rankAt s q := rfl
@[simp] theorem rankAt_setTremulant (s : State) (r : Nat) (on : Bool) (q : Nat) : rankAt (setTremulant s r on) q = rankAt s q := rfl
@[simp] theorem rankAt_setStop (s : State) (n : Nat) (e : StopEntry) (q : Nat) : rankAt (setStop s n e) q = rankAt s q := rfl
@[simp] theorem rankAt_setMode (s : State) (m : Mode) (q : Nat) : rankAt (setMode s m) q = rankAt s q := rfl
@[simp] theorem rankAt_setCombination (s : State) (v c : Nat) (x : StopSet) (q : Nat) : rankAt (setCombination s v c x) q = rankAt s q := rfl
@[simp] theorem rankAt_setCrescendo (s : State) (n : Nat) (x : StopSet) (q : Nat) : rankAt (setCrescendo s n x) q = rankAt s q := rfl
@[simp] theorem rankAt_bump (s : State) (c : Counter) (q : Nat) : rankAt (bump s c) q = rankAt s q := rfl
@[simp] theorem rankAt_raise (s : State) (c : Cause) (d : Detail) (q : Nat) : rankAt (raise s c d) q = rankAt s q := rfl
@[simp] theorem rankAt_setPort (s : State) (p : PortId) (c : ConsolePort) (q : Nat) : rankAt (setPort s p c) q = rankAt s q := by cases p <;> rfl

/-! ### stopAt -/

@[simp] theorem stopAt_setRail (s : State) (k : Nat) (r : Rail) (q : Nat) : stopAt (setRail s k r) q = stopAt s q := rfl
@[simp] theorem stopAt_setLink (s : State) (l : Nat) (x : Link) (q : Nat) : stopAt (setLink s l x) q = stopAt s q := rfl
@[simp] theorem stopAt_setRecord (s : State) (i : Nat) (r : Option Record) (q : Nat) : stopAt (setRecord s i r) q = stopAt s q := rfl
@[simp] theorem stopAt_setRun (s : State) (e : Nat) (r : ExprRun) (q : Nat) : stopAt (setRun s e r) q = stopAt s q := rfl
@[simp] theorem stopAt_setDrawn (s : State) (x : StopSet) (q : Nat) : stopAt (setDrawn s x) q = stopAt s q := rfl
@[simp] theorem stopAt_setTremulant (s : State) (r : Nat) (on : Bool) (q : Nat) : stopAt (setTremulant s r on) q = stopAt s q := rfl
@[simp] theorem stopAt_setMode (s : State) (m : Mode) (q : Nat) : stopAt (setMode s m) q = stopAt s q := rfl
@[simp] theorem stopAt_setCombination (s : State) (v c : Nat) (x : StopSet) (q : Nat) : stopAt (setCombination s v c x) q = stopAt s q := rfl
@[simp] theorem stopAt_setCrescendo (s : State) (n : Nat) (x : StopSet) (q : Nat) : stopAt (setCrescendo s n x) q = stopAt s q := rfl
@[simp] theorem stopAt_bump (s : State) (c : Counter) (q : Nat) : stopAt (bump s c) q = stopAt s q := rfl
@[simp] theorem stopAt_raise (s : State) (c : Cause) (d : Detail) (q : Nat) : stopAt (raise s c d) q = stopAt s q := rfl
@[simp] theorem stopAt_setPort (s : State) (p : PortId) (c : ConsolePort) (q : Nat) : stopAt (setPort s p c) q = stopAt s q := by cases p <;> rfl

/-! ### granting -/

@[simp] theorem granting_setRail (s : State) (k : Nat) (r : Rail) (q : Nat) : granting (setRail s k r) q = granting s q := rfl
@[simp] theorem granting_setLink (s : State) (l : Nat) (x : Link) (q : Nat) : granting (setLink s l x) q = granting s q := rfl
@[simp] theorem granting_setRecord (s : State) (i : Nat) (r : Option Record) (q : Nat) : granting (setRecord s i r) q = granting s q := rfl
@[simp] theorem granting_setRun (s : State) (e : Nat) (r : ExprRun) (q : Nat) : granting (setRun s e r) q = granting s q := rfl
@[simp] theorem granting_setDrawn (s : State) (x : StopSet) (q : Nat) : granting (setDrawn s x) q = granting s q := rfl
@[simp] theorem granting_setTremulant (s : State) (r : Nat) (on : Bool) (q : Nat) : granting (setTremulant s r on) q = granting s q := rfl
@[simp] theorem granting_setStop (s : State) (n : Nat) (e : StopEntry) (q : Nat) : granting (setStop s n e) q = granting s q := rfl
@[simp] theorem granting_setMode (s : State) (m : Mode) (q : Nat) : granting (setMode s m) q = granting s q := rfl
@[simp] theorem granting_setCombination (s : State) (v c : Nat) (x : StopSet) (q : Nat) : granting (setCombination s v c x) q = granting s q := rfl
@[simp] theorem granting_setCrescendo (s : State) (n : Nat) (x : StopSet) (q : Nat) : granting (setCrescendo s n x) q = granting s q := rfl
@[simp] theorem granting_bump (s : State) (c : Counter) (q : Nat) : granting (bump s c) q = granting s q := rfl
@[simp] theorem granting_raise (s : State) (c : Cause) (d : Detail) (q : Nat) : granting (raise s c d) q = granting s q := rfl
@[simp] theorem granting_setPort (s : State) (p : PortId) (c : ConsolePort) (q : Nat) : granting (setPort s p c) q = granting s q := by cases p <;> rfl

/-! ### holds -/

@[simp] theorem holds_setRail (s : State) (k : Nat) (r : Rail) (q : PortId) (y : Nat) : holds (setRail s k r) q y = holds s q y := rfl
@[simp] theorem holds_setLink (s : State) (l : Nat) (x : Link) (q : PortId) (y : Nat) : holds (setLink s l x) q y = holds s q y := rfl
@[simp] theorem holds_setRecord (s : State) (i : Nat) (r : Option Record) (q : PortId) (y : Nat) : holds (setRecord s i r) q y = holds s q y := rfl
@[simp] theorem holds_setRun (s : State) (e : Nat) (r : ExprRun) (q : PortId) (y : Nat) : holds (setRun s e r) q y = holds s q y := rfl
@[simp] theorem holds_setDrawn (s : State) (x : StopSet) (q : PortId) (y : Nat) : holds (setDrawn s x) q y = holds s q y := rfl
@[simp] theorem holds_setTremulant (s : State) (r : Nat) (on : Bool) (q : PortId) (y : Nat) : holds (setTremulant s r on) q y = holds s q y := rfl
@[simp] theorem holds_setStop (s : State) (n : Nat) (e : StopEntry) (q : PortId) (y : Nat) : holds (setStop s n e) q y = holds s q y := rfl
@[simp] theorem holds_setMode (s : State) (m : Mode) (q : PortId) (y : Nat) : holds (setMode s m) q y = holds s q y := rfl
@[simp] theorem holds_setCombination (s : State) (v c : Nat) (x : StopSet) (q : PortId) (y : Nat) : holds (setCombination s v c x) q y = holds s q y := rfl
@[simp] theorem holds_setCrescendo (s : State) (n : Nat) (x : StopSet) (q : PortId) (y : Nat) : holds (setCrescendo s n x) q y = holds s q y := rfl
@[simp] theorem holds_bump (s : State) (c : Counter) (q : PortId) (y : Nat) : holds (bump s c) q y = holds s q y := rfl
@[simp] theorem holds_raise (s : State) (c : Cause) (d : Detail) (q : PortId) (y : Nat) : holds (raise s c d) q y = holds s q y := rfl
@[simp] theorem holds_setPort (s : State) (p : PortId) (c : ConsolePort) (q : PortId) (y : Nat) : holds (setPort s p c) q y = holds s q y := by cases p <;> rfl

/-! ### railAt -/

@[simp] theorem railAt_setLink (s : State) (l : Nat) (x : Link) (q : Nat) : railAt (setLink s l x) q = railAt s q := rfl
@[simp] theorem railAt_setRecord (s : State) (i : Nat) (r : Option Record) (q : Nat) : railAt (setRecord s i r) q = railAt s q := rfl
@[simp] theorem railAt_setRun (s : State) (e : Nat) (r : ExprRun) (q : Nat) : railAt (setRun s e r) q = railAt s q := rfl
@[simp] theorem railAt_setDrawn (s : State) (x : StopSet) (q : Nat) : railAt (setDrawn s x) q = railAt s q := rfl
@[simp] theorem railAt_setTremulant (s : State) (r : Nat) (on : Bool) (q : Nat) : railAt (setTremulant s r on) q = railAt s q := rfl
@[simp] theorem railAt_setStop (s : State) (n : Nat) (e : StopEntry) (q : Nat) : railAt (setStop s n e) q = railAt s q := rfl
@[simp] theorem railAt_setMode (s : State) (m : Mode) (q : Nat) : railAt (setMode s m) q = railAt s q := rfl
@[simp] theorem railAt_setCombination (s : State) (v c : Nat) (x : StopSet) (q : Nat) : railAt (setCombination s v c x) q = railAt s q := rfl
@[simp] theorem railAt_setCrescendo (s : State) (n : Nat) (x : StopSet) (q : Nat) : railAt (setCrescendo s n x) q = railAt s q := rfl
@[simp] theorem railAt_bump (s : State) (c : Counter) (q : Nat) : railAt (bump s c) q = railAt s q := rfl
@[simp] theorem railAt_raise (s : State) (c : Cause) (d : Detail) (q : Nat) : railAt (raise s c d) q = railAt s q := rfl
@[simp] theorem railAt_setPort (s : State) (p : PortId) (c : ConsolePort) (q : Nat) : railAt (setPort s p c) q = railAt s q := by cases p <;> rfl

/-! ### linkAt -/

@[simp] theorem linkAt_setRail (s : State) (k : Nat) (r : Rail) (q : Nat) : linkAt (setRail s k r) q = linkAt s q := rfl
@[simp] theorem linkAt_setRecord (s : State) (i : Nat) (r : Option Record) (q : Nat) : linkAt (setRecord s i r) q = linkAt s q := rfl
@[simp] theorem linkAt_setRun (s : State) (e : Nat) (r : ExprRun) (q : Nat) : linkAt (setRun s e r) q = linkAt s q := rfl
@[simp] theorem linkAt_setDrawn (s : State) (x : StopSet) (q : Nat) : linkAt (setDrawn s x) q = linkAt s q := rfl
@[simp] theorem linkAt_setTremulant (s : State) (r : Nat) (on : Bool) (q : Nat) : linkAt (setTremulant s r on) q = linkAt s q := rfl
@[simp] theorem linkAt_setStop (s : State) (n : Nat) (e : StopEntry) (q : Nat) : linkAt (setStop s n e) q = linkAt s q := rfl
@[simp] theorem linkAt_setMode (s : State) (m : Mode) (q : Nat) : linkAt (setMode s m) q = linkAt s q := rfl
@[simp] theorem linkAt_setCombination (s : State) (v c : Nat) (x : StopSet) (q : Nat) : linkAt (setCombination s v c x) q = linkAt s q := rfl
@[simp] theorem linkAt_setCrescendo (s : State) (n : Nat) (x : StopSet) (q : Nat) : linkAt (setCrescendo s n x) q = linkAt s q := rfl
@[simp] theorem linkAt_bump (s : State) (c : Counter) (q : Nat) : linkAt (bump s c) q = linkAt s q := rfl
@[simp] theorem linkAt_raise (s : State) (c : Cause) (d : Detail) (q : Nat) : linkAt (raise s c d) q = linkAt s q := rfl
@[simp] theorem linkAt_setPort (s : State) (p : PortId) (c : ConsolePort) (q : Nat) : linkAt (setPort s p c) q = linkAt s q := by cases p <;> rfl

/-! ### portAt -/

@[simp] theorem portAt_setRail (s : State) (k : Nat) (r : Rail) (q : PortId) : portAt (setRail s k r) q = portAt s q := by cases q <;> rfl
@[simp] theorem portAt_setLink (s : State) (l : Nat) (x : Link) (q : PortId) : portAt (setLink s l x) q = portAt s q := by cases q <;> rfl
@[simp] theorem portAt_setRecord (s : State) (i : Nat) (r : Option Record) (q : PortId) : portAt (setRecord s i r) q = portAt s q := by cases q <;> rfl
@[simp] theorem portAt_setRun (s : State) (e : Nat) (r : ExprRun) (q : PortId) : portAt (setRun s e r) q = portAt s q := by cases q <;> rfl
@[simp] theorem portAt_setDrawn (s : State) (x : StopSet) (q : PortId) : portAt (setDrawn s x) q = portAt s q := by cases q <;> rfl
@[simp] theorem portAt_setTremulant (s : State) (r : Nat) (on : Bool) (q : PortId) : portAt (setTremulant s r on) q = portAt s q := by cases q <;> rfl
@[simp] theorem portAt_setStop (s : State) (n : Nat) (e : StopEntry) (q : PortId) : portAt (setStop s n e) q = portAt s q := by cases q <;> rfl
@[simp] theorem portAt_setMode (s : State) (m : Mode) (q : PortId) : portAt (setMode s m) q = portAt s q := by cases q <;> rfl
@[simp] theorem portAt_setCombination (s : State) (v c : Nat) (x : StopSet) (q : PortId) : portAt (setCombination s v c x) q = portAt s q := by cases q <;> rfl
@[simp] theorem portAt_setCrescendo (s : State) (n : Nat) (x : StopSet) (q : PortId) : portAt (setCrescendo s n x) q = portAt s q := by cases q <;> rfl
@[simp] theorem portAt_bump (s : State) (c : Counter) (q : PortId) : portAt (bump s c) q = portAt s q := by cases q <;> rfl
@[simp] theorem portAt_raise (s : State) (c : Cause) (d : Detail) (q : PortId) : portAt (raise s c d) q = portAt s q := by cases q <;> rfl

/-! ### exprAt -/

@[simp] theorem exprAt_setRail (s : State) (k : Nat) (r : Rail) (q : Nat) : exprAt (setRail s k r) q = exprAt s q := rfl
@[simp] theorem exprAt_setLink (s : State) (l : Nat) (x : Link) (q : Nat) : exprAt (setLink s l x) q = exprAt s q := rfl
@[simp] theorem exprAt_setRecord (s : State) (i : Nat) (r : Option Record) (q : Nat) : exprAt (setRecord s i r) q = exprAt s q := rfl
@[simp] theorem exprAt_setRun (s : State) (e : Nat) (r : ExprRun) (q : Nat) : exprAt (setRun s e r) q = exprAt s q := rfl
@[simp] theorem exprAt_setDrawn (s : State) (x : StopSet) (q : Nat) : exprAt (setDrawn s x) q = exprAt s q := rfl
@[simp] theorem exprAt_setTremulant (s : State) (r : Nat) (on : Bool) (q : Nat) : exprAt (setTremulant s r on) q = exprAt s q := rfl
@[simp] theorem exprAt_setStop (s : State) (n : Nat) (e : StopEntry) (q : Nat) : exprAt (setStop s n e) q = exprAt s q := rfl
@[simp] theorem exprAt_setMode (s : State) (m : Mode) (q : Nat) : exprAt (setMode s m) q = exprAt s q := rfl
@[simp] theorem exprAt_setCombination (s : State) (v c : Nat) (x : StopSet) (q : Nat) : exprAt (setCombination s v c x) q = exprAt s q := rfl
@[simp] theorem exprAt_setCrescendo (s : State) (n : Nat) (x : StopSet) (q : Nat) : exprAt (setCrescendo s n x) q = exprAt s q := rfl
@[simp] theorem exprAt_bump (s : State) (c : Counter) (q : Nat) : exprAt (bump s c) q = exprAt s q := rfl
@[simp] theorem exprAt_raise (s : State) (c : Cause) (d : Detail) (q : Nat) : exprAt (raise s c d) q = exprAt s q := rfl
@[simp] theorem exprAt_setPort (s : State) (p : PortId) (c : ConsolePort) (q : Nat) : exprAt (setPort s p c) q = exprAt s q := by cases p <;> rfl

/-! ### runAt -/

@[simp] theorem runAt_setRail (s : State) (k : Nat) (r : Rail) (q : Nat) : runAt (setRail s k r) q = runAt s q := rfl
@[simp] theorem runAt_setLink (s : State) (l : Nat) (x : Link) (q : Nat) : runAt (setLink s l x) q = runAt s q := rfl
@[simp] theorem runAt_setRecord (s : State) (i : Nat) (r : Option Record) (q : Nat) : runAt (setRecord s i r) q = runAt s q := rfl
@[simp] theorem runAt_setDrawn (s : State) (x : StopSet) (q : Nat) : runAt (setDrawn s x) q = runAt s q := rfl
@[simp] theorem runAt_setTremulant (s : State) (r : Nat) (on : Bool) (q : Nat) : runAt (setTremulant s r on) q = runAt s q := rfl
@[simp] theorem runAt_setStop (s : State) (n : Nat) (e : StopEntry) (q : Nat) : runAt (setStop s n e) q = runAt s q := rfl
@[simp] theorem runAt_setMode (s : State) (m : Mode) (q : Nat) : runAt (setMode s m) q = runAt s q := rfl
@[simp] theorem runAt_setCombination (s : State) (v c : Nat) (x : StopSet) (q : Nat) : runAt (setCombination s v c x) q = runAt s q := rfl
@[simp] theorem runAt_setCrescendo (s : State) (n : Nat) (x : StopSet) (q : Nat) : runAt (setCrescendo s n x) q = runAt s q := rfl
@[simp] theorem runAt_bump (s : State) (c : Counter) (q : Nat) : runAt (bump s c) q = runAt s q := rfl
@[simp] theorem runAt_raise (s : State) (c : Cause) (d : Detail) (q : Nat) : runAt (raise s c d) q = runAt s q := rfl
@[simp] theorem runAt_setPort (s : State) (p : PortId) (c : ConsolePort) (q : Nat) : runAt (setPort s p c) q = runAt s q := by cases p <;> rfl

/-! ### recordAt -/

@[simp] theorem recordAt_setRail (s : State) (k : Nat) (r : Rail) (q : Nat) : recordAt (setRail s k r) q = recordAt s q := rfl
@[simp] theorem recordAt_setLink (s : State) (l : Nat) (x : Link) (q : Nat) : recordAt (setLink s l x) q = recordAt s q := rfl
@[simp] theorem recordAt_setRun (s : State) (e : Nat) (r : ExprRun) (q : Nat) : recordAt (setRun s e r) q = recordAt s q := rfl
@[simp] theorem recordAt_setDrawn (s : State) (x : StopSet) (q : Nat) : recordAt (setDrawn s x) q = recordAt s q := rfl
@[simp] theorem recordAt_setTremulant (s : State) (r : Nat) (on : Bool) (q : Nat) : recordAt (setTremulant s r on) q = recordAt s q := rfl
@[simp] theorem recordAt_setStop (s : State) (n : Nat) (e : StopEntry) (q : Nat) : recordAt (setStop s n e) q = recordAt s q := rfl
@[simp] theorem recordAt_setMode (s : State) (m : Mode) (q : Nat) : recordAt (setMode s m) q = recordAt s q := rfl
@[simp] theorem recordAt_setCombination (s : State) (v c : Nat) (x : StopSet) (q : Nat) : recordAt (setCombination s v c x) q = recordAt s q := rfl
@[simp] theorem recordAt_setCrescendo (s : State) (n : Nat) (x : StopSet) (q : Nat) : recordAt (setCrescendo s n x) q = recordAt s q := rfl
@[simp] theorem recordAt_bump (s : State) (c : Counter) (q : Nat) : recordAt (bump s c) q = recordAt s q := rfl
@[simp] theorem recordAt_raise (s : State) (c : Cause) (d : Detail) (q : Nat) : recordAt (raise s c d) q = recordAt s q := rfl
@[simp] theorem recordAt_setPort (s : State) (p : PortId) (c : ConsolePort) (q : Nat) : recordAt (setPort s p c) q = recordAt s q := by cases p <;> rfl

/-! ### railOf -/

@[simp] theorem railOf_setRail (s : State) (k : Nat) (r : Rail) (q : Record) : railOf (setRail s k r) q = railOf s q := rfl
@[simp] theorem railOf_setLink (s : State) (l : Nat) (x : Link) (q : Record) : railOf (setLink s l x) q = railOf s q := rfl
@[simp] theorem railOf_setRecord (s : State) (i : Nat) (r : Option Record) (q : Record) : railOf (setRecord s i r) q = railOf s q := rfl
@[simp] theorem railOf_setRun (s : State) (e : Nat) (r : ExprRun) (q : Record) : railOf (setRun s e r) q = railOf s q := rfl
@[simp] theorem railOf_setDrawn (s : State) (x : StopSet) (q : Record) : railOf (setDrawn s x) q = railOf s q := rfl
@[simp] theorem railOf_setTremulant (s : State) (r : Nat) (on : Bool) (q : Record) : railOf (setTremulant s r on) q = railOf s q := rfl
@[simp] theorem railOf_setStop (s : State) (n : Nat) (e : StopEntry) (q : Record) : railOf (setStop s n e) q = railOf s q := rfl
@[simp] theorem railOf_setMode (s : State) (m : Mode) (q : Record) : railOf (setMode s m) q = railOf s q := rfl
@[simp] theorem railOf_setCombination (s : State) (v c : Nat) (x : StopSet) (q : Record) : railOf (setCombination s v c x) q = railOf s q := rfl
@[simp] theorem railOf_setCrescendo (s : State) (n : Nat) (x : StopSet) (q : Record) : railOf (setCrescendo s n x) q = railOf s q := rfl
@[simp] theorem railOf_bump (s : State) (c : Counter) (q : Record) : railOf (bump s c) q = railOf s q := rfl
@[simp] theorem railOf_raise (s : State) (c : Cause) (d : Detail) (q : Record) : railOf (raise s c d) q = railOf s q := rfl
@[simp] theorem railOf_setPort (s : State) (p : PortId) (c : ConsolePort) (q : Record) : railOf (setPort s p c) q = railOf s q := by cases p <;> rfl

end Sys2Proof.Machine
end

