-- ==== Sys2Proof/Laws/Console.lean ====
section
/-! SUPPORT. What a start mark can do (R132, R133, R176): it moves its own port and the counters alone, and what it comes
to at a slot boundary in each state of the receiver. -/

namespace Sys2Proof.Machine

theorem markAtBoundary_idle {s : State} {p : PortId} (h : (portAt s p).receiver = .idle) : markAtBoundary s p = s := by
  simp only [markAtBoundary, h]

theorem markAtBoundary_waiting {s : State} {p : PortId} (h : (portAt s p).receiver = .waiting) :
    markAtBoundary s p = setPort s p { portAt s p with
      receiver := .receiving [], framing := .reckoned, returnFrame := some (returnFrameOf s p) } := by
  simp only [markAtBoundary, h]

theorem markAtBoundary_receiving {s : State} {p : PortId} {taken : List Word}
    (h : (portAt s p).receiver = .receiving taken) :
    markAtBoundary s p = setPort (bump s (.earlyStarts p)) p { portAt s p with
      receiver := .waiting, framing := .reckoned, returnFrame := none, good := 0 } := by
  simp only [markAtBoundary, h]
  cases p <;> rfl

/-- A mark at a boundary changes nothing but the ports and the counters. -/
theorem markAtBoundary_frame (s : State) (p : PortId) :
    markAtBoundary s p = { s with
      portA := (markAtBoundary s p).portA, portB := (markAtBoundary s p).portB
      counters := (markAtBoundary s p).counters } := by
  cases h : (portAt s p).receiver with
  | idle => rw [markAtBoundary_idle h]
  | waiting => rw [markAtBoundary_waiting h]; cases p <;> rfl
  | receiving taken => rw [markAtBoundary_receiving h]; cases p <;> rfl

/-- A mark at a boundary leaves the other port as it is. -/
theorem markAtBoundary_other {s : State} {p q : PortId} (h : q ≠ p) : portAt (markAtBoundary s p) q = portAt s q := by
  cases hr : (portAt s p).receiver with
  | idle => rw [markAtBoundary_idle hr]
  | waiting => rw [markAtBoundary_waiting hr]; cases p <;> cases q <;> first | rfl | exact absurd rfl h
  | receiving taken => rw [markAtBoundary_receiving hr]; cases p <;> cases q <;> first | rfl | exact absurd rfl h

/-- A mark that is held, or taken at a boundary, is all that a start mark comes to. -/
theorem startMarkArrives_cases (s : State) (p : PortId) (bit : Fin 16) :
    startMarkArrives s p bit = markAtBoundary s p
      ∨ startMarkArrives s p bit = setPort s p { portAt s p with framing := .held } := by
  unfold startMarkArrives
  dsimp only
  split
  · exact .inl rfl
  · exact .inr rfl

/-- With no mark held the slots go to the receiver alone. -/
theorem slotsArrive_unheld {s : State} {p : PortId} (slots : List Word) (h : (portAt s p).framing ≠ .held) :
    slotsArrive s p slots = takeSlots s p slots := by
  simp only [slotsArrive, h, if_false]

/-- A receiver that does not receive takes no slot (R132). -/
theorem takeSlots_idle {s : State} {p : PortId} (slots : List Word) (h : ∀ taken, (portAt s p).receiver ≠ .receiving taken) :
    takeSlots s p slots = s := by
  unfold takeSlots
  split
  · rfl
  · rfl
  · rename_i taken hr
    exact absurd hr (h taken)

end Sys2Proof.Machine
end

