-- ==== Sys2Proof/Laws/Ops.lean ====
section
/-! SUPPORT. The named operations of Machine/Ops.lean, each said once: tables, bits, sets, the places of the sounding
table. -/

namespace Sys2Proof.Machine

/-! ### Tables -/

theorem look_put_same {α : Type} {n : Nat} (v : Vector α n) {i : Nat} (x d : α) (h : i < n) :
    look (put v i x) i d = x := by
  simp [look, put, h]

theorem look_put_ne {α : Type} {n : Nat} (v : Vector α n) {i j : Nat} (x d : α) (h : i ≠ j) :
    look (put v i x) j d = look v j d := by
  simp [look, put, h]

theorem put_beyond {α : Type} {n : Nat} (v : Vector α n) {i : Nat} (x : α) (h : n ≤ i) : put v i x = v := by
  ext j hj
  have : i ≠ j := by omega
  simp [put, this]

theorem look_put {α : Type} {n : Nat} (v : Vector α n) (i j : Nat) (x d : α) :
    look (put v i x) j d = if i = j ∧ i < n then x else look v j d := by
  by_cases h : i = j
  · subst h
    by_cases hn : i < n
    · simp [look_put_same, hn]
    · simp [put_beyond v x (Nat.le_of_not_lt hn), hn]
  · simp [look_put_ne v x d h, h]

theorem look_beyond {α : Type} {n : Nat} (v : Vector α n) {i : Nat} (d : α) (h : n ≤ i) : look v i d = d := by
  simp [look, h]

theorem look_lt {α : Type} {n : Nat} (v : Vector α n) {i : Nat} (d : α) (h : i < n) : look v i d = v[i] := by
  simp [look, h]

theorem look_replicate {α : Type} (n i : Nat) (x d : α) :
    look (Vector.replicate n x) i d = if i < n then x else d := by
  by_cases h : i < n <;> simp [look, h]

theorem look_mapTable {α : Type} {n : Nat} (f : α → α) (v : Vector α n) {i : Nat} (d : α) (h : i < n) :
    look (mapTable f v) i d = f (look v i d) := by
  rw [look_lt _ _ h, look_lt _ _ h]
  simp [mapTable]

theorem mem_toList_iff_look {α : Type} {n : Nat} (v : Vector α n) (x d : α) :
    x ∈ v.toList ↔ ∃ i, i < n ∧ look v i d = x := by
  rw [Vector.mem_toList_iff, Vector.mem_iff_getElem]
  constructor
  · rintro ⟨i, hi, rfl⟩
    exact ⟨i, hi, look_lt v d hi⟩
  · rintro ⟨i, hi, rfl⟩
    exact ⟨i, hi, (look_lt v d hi).symm⟩

/-! ### Bits and sets -/

theorem getLsbD_bitsOf (w : Nat) (f : Nat → Bool) (k i : Nat) :
    (bitsOf w f k).getLsbD i = (decide (i < k) && decide (i < w) && f i) := by
  induction k with
  | zero => simp [bitsOf]
  | succ k ih =>
    rw [bitsOf, BitVec.getLsbD_or, ih]
    by_cases hk : i = k
    · subst hk
      by_cases hf : f i = true <;> simp [hf, BitVec.getLsbD_twoPow]
    · have : (if f k then BitVec.twoPow w k else (0 : BitVec w)).getLsbD i = false := by
        split <;> simp [BitVec.getLsbD_twoPow, Ne.symm hk]
      rw [this]
      have hlt : (decide (i < k + 1)) = decide (i < k) := by
        apply decide_eq_decide.mpr; omega
      rw [hlt, Bool.or_false]

theorem getLsbD_withBit {w : Nat} (x : BitVec w) (i j : Nat) (v : Bool) :
    (withBit x i v).getLsbD j = if i = j ∧ j < w then v else x.getLsbD j := by
  by_cases hj : j < w
  · by_cases h : i = j
    · subst h
      cases v <;> simp [withBit, hj]
    · have hji : ¬ j = i := fun e => h e.symm
      cases v <;> simp [withBit, h, hj, hji]
  · have : x.getLsbD j = false := BitVec.getLsbD_of_ge x j (Nat.le_of_not_lt hj)
    cases v <;> simp [withBit, BitVec.getLsbD_twoPow, hj, this] <;> omega

theorem mem_members {w : Nat} (x : BitVec w) (i : Nat) : i ∈ members x ↔ x.getLsbD i = true := by
  simp only [members, List.mem_filter, List.mem_range, and_iff_right_iff_imp]
  intro h
  by_contra hn
  rw [BitVec.getLsbD_of_ge x i (Nat.le_of_not_lt hn)] at h
  exact absurd h (by decide)

theorem byteAt_lt (bs : List Byte) (i : Nat) : byteAt bs i < 256 :=
  BitVec.isLt _

theorem wordAt_lt (bs : List Byte) (i : Nat) : wordAt bs i < 65536 := by
  have := byteAt_lt bs i
  have := byteAt_lt bs (i + 1)
  unfold wordAt
  omega

theorem toNat_byte {n : Nat} (h : n < 256) : (byte n).toNat = n := by
  simp only [byte, BitVec.toNat_ofNat]
  omega

/-! ### Units by number -/

theorem portAt_setPort_same (s : State) (p : PortId) (c : ConsolePort) : portAt (setPort s p c) p = c := by
  cases p <;> rfl

theorem portAt_setPort_ne (s : State) {p q : PortId} (c : ConsolePort) (h : p ≠ q) :
    portAt (setPort s p c) q = portAt s q := by
  cases p <;> cases q <;> first | rfl | exact absurd rfl h

theorem portAt_setPort (s : State) (p q : PortId) (c : ConsolePort) :
    portAt (setPort s p c) q = if p = q then c else portAt s q := by
  cases p <;> cases q <;> rfl

theorem railAt_setRail (s : State) (k j : Nat) (r : Rail) :
    railAt (setRail s k r) j = if k = j ∧ k < 4 then r else railAt s j := by
  simp [railAt, look_put]

theorem linkAt_setLink (s : State) (l j : Nat) (x : Link) :
    linkAt (setLink s l x) j = if l = j ∧ l < 4 then x else linkAt s j := by
  simp [linkAt, look_put]

theorem runAt_setRun (s : State) (e j : Nat) (r : ExprRun) :
    runAt (setRun s e r) j = if e = j ∧ e < 8 then r else runAt s j := by
  simp [runAt, look_put]

theorem stopAt_setStop (s : State) (n j : Nat) (e : StopEntry) :
    stopAt (setStop s n e) j = if n = j ∧ n < 256 then e else stopAt s j := by
  simp [stopAt, look_put]

theorem recordAt_setRecord (s : State) (i j : Nat) (r : Option Record) :
    recordAt (setRecord s i r) j = if i = j ∧ i < 448 then r else recordAt s j := by
  simp [recordAt, look_put]

theorem recordAt_lt {s : State} {i : Nat} {r : Record} (h : recordAt s i = some r) : i < 448 := by
  by_contra hn
  rw [recordAt, look_beyond _ _ (Nat.le_of_not_lt hn)] at h
  exact absurd h (by simp)

/-! ### Places of the sounding table -/

theorem mem_occupiedFrom (t : List (Option Record)) (k i : Nat) :
    i ∈ occupiedFrom k t ↔ ∃ j r, t[j]? = some (some r) ∧ i = k + j := by
  induction t generalizing k with
  | nil => simp [occupiedFrom]
  | cons x t ih =>
    cases x with
    | none =>
      rw [occupiedFrom, ih]
      constructor
      · rintro ⟨j, r, h, rfl⟩
        exact ⟨j + 1, r, by simpa using h, by omega⟩
      · rintro ⟨j, r, h, rfl⟩
        cases j with
        | zero => simp at h
        | succ j => exact ⟨j, r, by simpa using h, by omega⟩
    | some y =>
      rw [occupiedFrom, List.mem_cons, ih]
      constructor
      · rintro (rfl | ⟨j, r, h, rfl⟩)
        · exact ⟨0, y, by simp, by omega⟩
        · exact ⟨j + 1, r, by simpa using h, by omega⟩
      · rintro ⟨j, r, h, rfl⟩
        cases j with
        | zero => exact Or.inl (by omega)
        | succ j => exact Or.inr ⟨j, r, by simpa using h, by omega⟩

theorem toList_getElem?_eq (s : State) (i : Nat) (r : Record) :
    s.table.toList[i]? = some (some r) ↔ recordAt s i = some r := by
  simp only [recordAt, look]
  by_cases h : i < 448
  · simp [h]
  · simp [h]

theorem mem_occupied (s : State) (i : Nat) : i ∈ occupied s ↔ ∃ r, recordAt s i = some r := by
  rw [occupied, mem_occupiedFrom]
  constructor
  · rintro ⟨j, r, h, rfl⟩
    exact ⟨r, by rw [Nat.zero_add]; exact (toList_getElem?_eq s j r).mp h⟩
  · rintro ⟨r, h⟩
    exact ⟨i, r, (toList_getElem?_eq s i r).mpr h, by omega⟩

theorem firstPlace_some {f : Option Record → Bool} {t : List (Option Record)} {k i : Nat}
    (h : firstPlace f k t = some i) : ∃ j x, t[j]? = some x ∧ f x = true ∧ i = k + j := by
  induction t generalizing k with
  | nil => simp [firstPlace] at h
  | cons x t ih =>
    by_cases hx : f x = true
    · simp only [firstPlace, hx, if_true, Option.some.injEq] at h
      exact ⟨0, x, by simp, hx, by omega⟩
    · simp only [firstPlace, hx] at h
      obtain ⟨j, y, hy, hf, rfl⟩ := ih h
      exact ⟨j + 1, y, by simpa using hy, hf, by omega⟩

theorem firstPlace_none {f : Option Record → Bool} {t : List (Option Record)} {k : Nat}
    (h : firstPlace f k t = none) : ∀ x ∈ t, f x = false := by
  induction t generalizing k with
  | nil => simp
  | cons x t ih =>
    by_cases hx : f x = true
    · simp [firstPlace, hx] at h
    · simp only [firstPlace, hx] at h
      intro y hy
      rcases List.mem_cons.mp hy with rfl | hy
      · simpa using hx
      · exact ih h y hy

/-- What the search for a record answers: the record in use for the rank and pipe. -/
theorem findRecord_some {s : State} {rank pipe i : Nat} (h : findRecord s rank pipe = some i) :
    ∃ r, recordAt s i = some r ∧ r.rank = rank ∧ r.pipe = pipe := by
  obtain ⟨j, x, hx, hf, rfl⟩ := firstPlace_some h
  cases x with
  | none => simp [holdsPipe] at hf
  | some r =>
    simp only [holdsPipe, Bool.and_eq_true, beq_iff_eq] at hf
    exact ⟨r, by rw [Nat.zero_add]; exact (toList_getElem?_eq s j r).mp hx, hf.1, hf.2⟩

theorem findRecord_none {s : State} {rank pipe : Nat} (h : findRecord s rank pipe = none) {i : Nat} {r : Record}
    (hr : recordAt s i = some r) : ¬ (r.rank = rank ∧ r.pipe = pipe) := by
  have := firstPlace_none h (some r) (List.mem_of_getElem? ((toList_getElem?_eq s i r).mpr hr))
  simpa [holdsPipe] using this

/-- The lowest FREE index is FREE. -/
theorem lowestFree_some {s : State} {i : Nat} (h : lowestFree s = some i) : recordAt s i = none ∧ i < 448 := by
  obtain ⟨j, x, hx, hf, rfl⟩ := firstPlace_some h
  have hj : j < 448 := by
    have := (List.getElem?_eq_some_iff.mp hx).1
    simpa using this
  rw [Option.isNone_iff_eq_none] at hf
  subst hf
  rw [Nat.zero_add]
  refine ⟨?_, hj⟩
  cases hr : recordAt s j with
  | none => rfl
  | some r =>
    have := (toList_getElem?_eq s j r).mpr hr
    rw [this] at hx
    exact absurd hx (by simp)

theorem tableEmpty_iff (s : State) : tableEmpty s = true ↔ ∀ i, recordAt s i = none := by
  rw [tableEmpty, List.all_eq_true]
  constructor
  · intro h i
    cases hr : recordAt s i with
    | none => rfl
    | some r =>
      have := h (some r) (List.mem_of_getElem? ((toList_getElem?_eq s i r).mpr hr))
      simp at this
  · intro h x hx
    cases x with
    | none => rfl
    | some r =>
      obtain ⟨i, hi, he⟩ := (mem_toList_iff_look s.table (some r) none).mp hx
      have := h i
      rw [recordAt, he] at this
      exact absurd this (by simp)

theorem not_mem_occupied_of_tableEmpty {s : State} (h : tableEmpty s = true) (i : Nat) : i ∉ occupied s := by
  rw [mem_occupied]
  rintro ⟨r, hr⟩
  rw [(tableEmpty_iff s).mp h i] at hr
  exact absurd hr (by simp)

/-! ### Charge and draw -/

theorem recordAt_storeRecord (s : State) (i j : Nat) (r : Record) :
    recordAt (storeRecord s i r) j = if i = j ∧ i < 448 then some r else recordAt s j := by
  simp [storeRecord, recordAt_setRecord]

theorem recordAt_freeRecord (s : State) (i j : Nat) :
    recordAt (freeRecord s i) j = if i = j then none else recordAt s j := by
  unfold freeRecord
  cases h : recordAt s i with
  | none =>
    by_cases hij : i = j
    · subst hij; simp [h]
    · simp [hij]
  | some r =>
    have := recordAt_lt h
    simp [recordAt_setRecord, this]

end Sys2Proof.Machine
end

