-- ==== Sys2Proof/Laws/PerInstr.lean ====
section
/-! SUPPORT. What holds of every command as syntax, constructor by constructor: a command that carries a request's
parameters is a request with a transaction, only such a command has a row in the mode table of R163, and no event of
another line or of a timer has a transaction. -/

namespace Sys2Proof.Laws

set_option Elab.async false

/-- A command with parameters is a request and has a transaction; a command that is no request is taken in every mode
and has no length of R177; a length of R177 goes with parameters (R161, R163, R177). -/
def Port.Statement (c : Instr) : Prop :=
  (c.parameters.isSome = true → c.isRequest = true ∧ (encodeTransaction c).isSome = true)
    ∧ (c.isRequest = false → c.parameterLength = none ∧ ∀ m, c.takenIn m = true)
    ∧ (c.parameterLength.isSome = true → c.parameters.isSome = true)

theorem Port.powerOnReset (line : ResetLine) : Port.Statement (.powerOnReset line) := by
  simp [Port.Statement, Instr.parameters, Instr.isRequest, Instr.parameterLength, Instr.takenIn, encodeTransaction]

theorem Port.voidTransaction (bytes : List Byte) : Port.Statement (.voidTransaction bytes) := by
  simp [Port.Statement, Instr.parameters, Instr.isRequest, Instr.parameterLength, Instr.takenIn, encodeTransaction]

theorem Port.requestCheckFailed (bytes : List Byte) : Port.Statement (.requestCheckFailed bytes) := by
  simp [Port.Statement, Instr.parameters, Instr.isRequest, Instr.parameterLength, Instr.takenIn, encodeTransaction]

theorem Port.unknownRequest (code : Byte) (params : List Byte) : Port.Statement (.unknownRequest code params) := by
  simp [Port.Statement, Instr.parameters, Instr.isRequest, Instr.parameterLength, Instr.takenIn, encodeTransaction]

theorem Port.requestDiscarded : Port.Statement .requestDiscarded := by
  simp [Port.Statement, Instr.parameters, Instr.isRequest, Instr.parameterLength, Instr.takenIn, encodeTransaction]

theorem Port.fetch (clocked : Nat) : Port.Statement (.fetch clocked) := by
  simp [Port.Statement, Instr.parameters, Instr.isRequest, Instr.parameterLength, Instr.takenIn, encodeTransaction]

theorem Port.tableRead (params : List Byte) : Port.Statement (.tableRead params) := by
  simp [Port.Statement, Instr.parameters, Instr.isRequest, Instr.parameterLength, Instr.takenIn, encodeTransaction]

theorem Port.tableWriteRank (params : List Byte) : Port.Statement (.tableWriteRank params) := by
  simp [Port.Statement, Instr.parameters, Instr.isRequest, Instr.parameterLength, Instr.takenIn, encodeTransaction]

theorem Port.tableWriteStop (params : List Byte) : Port.Statement (.tableWriteStop params) := by
  simp [Port.Statement, Instr.parameters, Instr.isRequest, Instr.parameterLength, Instr.takenIn, encodeTransaction]

theorem Port.tableWriteSlotMap (params : List Byte) : Port.Statement (.tableWriteSlotMap params) := by
  simp [Port.Statement, Instr.parameters, Instr.isRequest, Instr.parameterLength, Instr.takenIn, encodeTransaction]

theorem Port.tableWriteReturnMap (params : List Byte) : Port.Statement (.tableWriteReturnMap params) := by
  simp [Port.Statement, Instr.parameters, Instr.isRequest, Instr.parameterLength, Instr.takenIn, encodeTransaction]

theorem Port.tableWritePort (params : List Byte) : Port.Statement (.tableWritePort params) := by
  simp [Port.Statement, Instr.parameters, Instr.isRequest, Instr.parameterLength, Instr.takenIn, encodeTransaction]

theorem Port.tableWriteLink (params : List Byte) : Port.Statement (.tableWriteLink params) := by
  simp [Port.Statement, Instr.parameters, Instr.isRequest, Instr.parameterLength, Instr.takenIn, encodeTransaction]

theorem Port.tableWriteRail (params : List Byte) : Port.Statement (.tableWriteRail params) := by
  simp [Port.Statement, Instr.parameters, Instr.isRequest, Instr.parameterLength, Instr.takenIn, encodeTransaction]

theorem Port.tableWriteGrant (params : List Byte) : Port.Statement (.tableWriteGrant params) := by
  simp [Port.Statement, Instr.parameters, Instr.isRequest, Instr.parameterLength, Instr.takenIn, encodeTransaction]

theorem Port.tableWriteCombination (params : List Byte) : Port.Statement (.tableWriteCombination params) := by
  simp [Port.Statement, Instr.parameters, Instr.isRequest, Instr.parameterLength, Instr.takenIn, encodeTransaction]

theorem Port.tableWriteCrescendo (params : List Byte) : Port.Statement (.tableWriteCrescendo params) := by
  simp [Port.Statement, Instr.parameters, Instr.isRequest, Instr.parameterLength, Instr.takenIn, encodeTransaction]

theorem Port.tableWriteExpression (params : List Byte) : Port.Statement (.tableWriteExpression params) := by
  simp [Port.Statement, Instr.parameters, Instr.isRequest, Instr.parameterLength, Instr.takenIn, encodeTransaction]

theorem Port.tableWriteMute (params : List Byte) : Port.Statement (.tableWriteMute params) := by
  simp [Port.Statement, Instr.parameters, Instr.isRequest, Instr.parameterLength, Instr.takenIn, encodeTransaction]

theorem Port.start (params : List Byte) : Port.Statement (.start params) := by
  simp [Port.Statement, Instr.parameters, Instr.isRequest, Instr.parameterLength, Instr.takenIn, encodeTransaction]

theorem Port.stop (params : List Byte) : Port.Statement (.stop params) := by
  simp [Port.Statement, Instr.parameters, Instr.isRequest, Instr.parameterLength, Instr.takenIn, encodeTransaction]

theorem Port.restart (params : List Byte) : Port.Statement (.restart params) := by
  simp [Port.Statement, Instr.parameters, Instr.isRequest, Instr.parameterLength, Instr.takenIn, encodeTransaction]

theorem Port.allClear (params : List Byte) : Port.Statement (.allClear params) := by
  simp [Port.Statement, Instr.parameters, Instr.isRequest, Instr.parameterLength, Instr.takenIn, encodeTransaction]

theorem Port.recallPiston (params : List Byte) : Port.Statement (.recallPiston params) := by
  simp [Port.Statement, Instr.parameters, Instr.isRequest, Instr.parameterLength, Instr.takenIn, encodeTransaction]

theorem Port.setLevel (params : List Byte) : Port.Statement (.setLevel params) := by
  simp [Port.Statement, Instr.parameters, Instr.isRequest, Instr.parameterLength, Instr.takenIn, encodeTransaction]

theorem Port.lookup (params : List Byte) : Port.Statement (.lookup params) := by
  simp [Port.Statement, Instr.parameters, Instr.isRequest, Instr.parameterLength, Instr.takenIn, encodeTransaction]

theorem Port.nextRecord (params : List Byte) : Port.Statement (.nextRecord params) := by
  simp [Port.Statement, Instr.parameters, Instr.isRequest, Instr.parameterLength, Instr.takenIn, encodeTransaction]

theorem Port.silence (params : List Byte) : Port.Statement (.silence params) := by
  simp [Port.Statement, Instr.parameters, Instr.isRequest, Instr.parameterLength, Instr.takenIn, encodeTransaction]

theorem Port.readStatusPort (params : List Byte) : Port.Statement (.readStatusPort params) := by
  simp [Port.Statement, Instr.parameters, Instr.isRequest, Instr.parameterLength, Instr.takenIn, encodeTransaction]

theorem Port.readStatusRail (params : List Byte) : Port.Statement (.readStatusRail params) := by
  simp [Port.Statement, Instr.parameters, Instr.isRequest, Instr.parameterLength, Instr.takenIn, encodeTransaction]

theorem Port.readStatusLink (params : List Byte) : Port.Statement (.readStatusLink params) := by
  simp [Port.Statement, Instr.parameters, Instr.isRequest, Instr.parameterLength, Instr.takenIn, encodeTransaction]

theorem Port.readStatusExpression (params : List Byte) : Port.Statement (.readStatusExpression params) := by
  simp [Port.Statement, Instr.parameters, Instr.isRequest, Instr.parameterLength, Instr.takenIn, encodeTransaction]

theorem Port.readStatusStopSets (params : List Byte) : Port.Statement (.readStatusStopSets params) := by
  simp [Port.Statement, Instr.parameters, Instr.isRequest, Instr.parameterLength, Instr.takenIn, encodeTransaction]

theorem Port.readStatusMode (params : List Byte) : Port.Statement (.readStatusMode params) := by
  simp [Port.Statement, Instr.parameters, Instr.isRequest, Instr.parameterLength, Instr.takenIn, encodeTransaction]

theorem Port.readAttention (params : List Byte) : Port.Statement (.readAttention params) := by
  simp [Port.Statement, Instr.parameters, Instr.isRequest, Instr.parameterLength, Instr.takenIn, encodeTransaction]

theorem Port.clearAttention (params : List Byte) : Port.Statement (.clearAttention params) := by
  simp [Port.Statement, Instr.parameters, Instr.isRequest, Instr.parameterLength, Instr.takenIn, encodeTransaction]

theorem Port.writeAttentionEnable (params : List Byte) : Port.Statement (.writeAttentionEnable params) := by
  simp [Port.Statement, Instr.parameters, Instr.isRequest, Instr.parameterLength, Instr.takenIn, encodeTransaction]

theorem Port.readCounters (params : List Byte) : Port.Statement (.readCounters params) := by
  simp [Port.Statement, Instr.parameters, Instr.isRequest, Instr.parameterLength, Instr.takenIn, encodeTransaction]

theorem Port.clearCounters (params : List Byte) : Port.Statement (.clearCounters params) := by
  simp [Port.Statement, Instr.parameters, Instr.isRequest, Instr.parameterLength, Instr.takenIn, encodeTransaction]

theorem Port.readDirty (params : List Byte) : Port.Statement (.readDirty params) := by
  simp [Port.Statement, Instr.parameters, Instr.isRequest, Instr.parameterLength, Instr.takenIn, encodeTransaction]

theorem Port.clearFaultOne (params : List Byte) : Port.Statement (.clearFaultOne params) := by
  simp [Port.Statement, Instr.parameters, Instr.isRequest, Instr.parameterLength, Instr.takenIn, encodeTransaction]

theorem Port.clearFaultAll (params : List Byte) : Port.Statement (.clearFaultAll params) := by
  simp [Port.Statement, Instr.parameters, Instr.isRequest, Instr.parameterLength, Instr.takenIn, encodeTransaction]

theorem Port.nextFault (params : List Byte) : Port.Statement (.nextFault params) := by
  simp [Port.Statement, Instr.parameters, Instr.isRequest, Instr.parameterLength, Instr.takenIn, encodeTransaction]

theorem Port.startMark (mark : FramingMark) : Port.Statement (.startMark mark) := by
  simp [Port.Statement, Instr.parameters, Instr.isRequest, Instr.parameterLength, Instr.takenIn, encodeTransaction]

theorem Port.earlyStartMark (mark : FramingMark) : Port.Statement (.earlyStartMark mark) := by
  simp [Port.Statement, Instr.parameters, Instr.isRequest, Instr.parameterLength, Instr.takenIn, encodeTransaction]

theorem Port.scanFrame (port : PortId) (slots : List Word) : Port.Statement (.scanFrame port slots) := by
  simp [Port.Statement, Instr.parameters, Instr.isRequest, Instr.parameterLength, Instr.takenIn, encodeTransaction]

theorem Port.watchdogExpiry (port : PortId) : Port.Statement (.watchdogExpiry port) := by
  simp [Port.Statement, Instr.parameters, Instr.isRequest, Instr.parameterLength, Instr.takenIn, encodeTransaction]

theorem Port.driveTimerExpiry (port : PortId) : Port.Statement (.driveTimerExpiry port) := by
  simp [Port.Statement, Instr.parameters, Instr.isRequest, Instr.parameterLength, Instr.takenIn, encodeTransaction]

theorem Port.waitTimerExpiry (index : Fin 448) : Port.Statement (.waitTimerExpiry index) := by
  simp [Port.Statement, Instr.parameters, Instr.isRequest, Instr.parameterLength, Instr.takenIn, encodeTransaction]

theorem Port.pullTimerExpiry (index : Fin 448) : Port.Statement (.pullTimerExpiry index) := by
  simp [Port.Statement, Instr.parameters, Instr.isRequest, Instr.parameterLength, Instr.takenIn, encodeTransaction]

theorem Port.settleTimerExpiry (index : Fin 448) : Port.Statement (.settleTimerExpiry index) := by
  simp [Port.Statement, Instr.parameters, Instr.isRequest, Instr.parameterLength, Instr.takenIn, encodeTransaction]

theorem Port.strikeTimerExpiry (index : Fin 448) : Port.Statement (.strikeTimerExpiry index) := by
  simp [Port.Statement, Instr.parameters, Instr.isRequest, Instr.parameterLength, Instr.takenIn, encodeTransaction]

theorem Port.cycleTimerExpiry (index : Fin 448) : Port.Statement (.cycleTimerExpiry index) := by
  simp [Port.Statement, Instr.parameters, Instr.isRequest, Instr.parameterLength, Instr.takenIn, encodeTransaction]

theorem Port.protectionTimerExpiry (index : Fin 448) : Port.Statement (.protectionTimerExpiry index) := by
  simp [Port.Statement, Instr.parameters, Instr.isRequest, Instr.parameterLength, Instr.takenIn, encodeTransaction]

theorem Port.periodTimerExpiry (link : Fin 4) : Port.Statement (.periodTimerExpiry link) := by
  simp [Port.Statement, Instr.parameters, Instr.isRequest, Instr.parameterLength, Instr.takenIn, encodeTransaction]

theorem Port.keepAliveExpiry (link : Fin 4) : Port.Statement (.keepAliveExpiry link) := by
  simp [Port.Statement, Instr.parameters, Instr.isRequest, Instr.parameterLength, Instr.takenIn, encodeTransaction]

theorem Port.onDemandFrameStart (link : Fin 4) : Port.Statement (.onDemandFrameStart link) := by
  simp [Port.Statement, Instr.parameters, Instr.isRequest, Instr.parameterLength, Instr.takenIn, encodeTransaction]

theorem Port.frameSent (link : Fin 4) : Port.Statement (.frameSent link) := by
  simp [Port.Statement, Instr.parameters, Instr.isRequest, Instr.parameterLength, Instr.takenIn, encodeTransaction]

theorem Port.replyPeriodClose (link : Fin 4) (words : List Word) : Port.Statement (.replyPeriodClose link words) := by
  simp [Port.Statement, Instr.parameters, Instr.isRequest, Instr.parameterLength, Instr.takenIn, encodeTransaction]

end Sys2Proof.Laws
end

