-- ==== Sys2Proof/Laws/Sounding.lean ====
section
/-! SUPPORT. What the supply allocator and the sounding table can do to a state, said once. `Evolves s t`: t is s but
for records that moved on in place or were freed, claims that went, and the rails, counters and attention. Every
operation of Chapters 2 to 4 but a claim request evolves the state; a claim request adds one claim. -/

namespace Sys2Proof.Machine

/-! ### The frame of the sounding table -/

/-- t is s but for the sounding table, the rails, the counters and attention. -/
def TableFrame (s t : State) : Prop :=
  t = { s with
    table := t.table, rails := t.rails, counters := t.counters, pendingCauses := t.pendingCauses
    details := t.details, firstCause := t.firstCause }

theorem TableFrame.refl (s : State) : TableFrame s s := rfl

theorem TableFrame.trans {s t u : State} (h : TableFrame s t) (k : TableFrame t u) : TableFrame s u := by
  unfold TableFrame at *
  rw [h] at k
  exact k

/-- A record that moved on in place: same rank, pipe and kind, and no claim it did not have. -/
def MovedOn (r r' : Record) : Prop :=
  r'.rank = r.rank ∧ r'.pipe = r.pipe ∧ r'.kind = r.kind ∧ r'.claims.Sublist r.claims

theorem MovedOn.refl (r : Record) : MovedOn r r := ⟨rfl, rfl, rfl, List.Sublist.refl _⟩

theorem MovedOn.trans {a b c : Record} (h : MovedOn a b) (k : MovedOn b c) : MovedOn a c :=
  ⟨k.1.trans h.1, k.2.1.trans h.2.1, k.2.2.1.trans h.2.2.1, k.2.2.2.trans h.2.2.2⟩

/-- t comes from s by records moving on in place or being freed; no rail entry changes. -/
structure Evolves (s t : State) : Prop where
  frame : TableFrame s t
  entries : ∀ k, (railAt t k).entry = (railAt s k).entry
  records : ∀ i r', recordAt t i = some r' → ∃ r, recordAt s i = some r ∧ MovedOn r r'

namespace Evolves

theorem refl (s : State) : Evolves s s :=
  ⟨TableFrame.refl s, fun _ => rfl, fun _ r' h => ⟨r', h, MovedOn.refl r'⟩⟩

theorem trans {s t u : State} (h : Evolves s t) (k : Evolves t u) : Evolves s u where
  frame := h.frame.trans k.frame
  entries := fun j => (k.entries j).trans (h.entries j)
  records := by
    intro i r' hu
    obtain ⟨r1, h1, m1⟩ := k.records i r' hu
    obtain ⟨r0, h0, m0⟩ := h.records i r1 h1
    exact ⟨r0, h0, m0.trans m1⟩

/-- A fold of evolving steps evolves. -/
theorem foldl {α : Type} {f : State → α → State} (h : ∀ s a, Evolves s (f s a)) (xs : List α) (s : State) :
    Evolves s (xs.foldl f s) := by
  induction xs generalizing s with
  | nil => exact refl s
  | cons a t ih => exact (h s a).trans (ih _)

theorem rank {s t : State} (h : Evolves s t) : t.ranks = s.ranks := by
  rw [h.frame]

theorem rankAt_eq {s t : State} (h : Evolves s t) (q : Nat) : rankAt t q = rankAt s q := by
  rw [rankAt, h.rank, rankAt]

theorem mode_eq {s t : State} (h : Evolves s t) : t.mode = s.mode := by
  rw [h.frame]

end Evolves

theorem evolves_setRecord {s : State} {i : Nat} {r r' : Record} (h : recordAt s i = some r) (m : MovedOn r r') :
    Evolves s (setRecord s i (some r')) where
  frame := rfl
  entries := fun _ => rfl
  records := by
    intro j x hx
    rw [recordAt_setRecord] at hx
    split at hx
    · next hij =>
      obtain ⟨rfl, _⟩ := hij
      obtain rfl := Option.some.inj hx
      exact ⟨r, h, m⟩
    · exact ⟨x, hx, MovedOn.refl x⟩

theorem evolves_setRail (s : State) (k : Nat) (r : Rail) (h : r.entry = (railAt s k).entry) :
    Evolves s (setRail s k r) where
  frame := rfl
  entries := by
    intro j
    rw [railAt_setRail]
    split
    · next hk => rw [← hk.1, h]
    · rfl
  records := fun _ x hx => ⟨x, hx, MovedOn.refl x⟩

theorem evolves_bump (s : State) (c : Counter) : Evolves s (bump s c) :=
  ⟨rfl, fun _ => rfl, fun _ x hx => ⟨x, hx, MovedOn.refl x⟩⟩

theorem evolves_raise (s : State) (c : Cause) (d : Detail) : Evolves s (raise s c d) :=
  ⟨rfl, fun _ => rfl, fun _ x hx => ⟨x, hx, MovedOn.refl x⟩⟩

theorem Evolves.thenBump {s t : State} (h : Evolves s t) (c : Counter) : Evolves s (bump t c) :=
  h.trans (evolves_bump t c)

theorem Evolves.thenRaise {s t : State} (h : Evolves s t) (c : Cause) (d : Detail) : Evolves s (raise t c d) :=
  h.trans (evolves_raise t c d)

theorem evolves_storeRecord {s : State} {i : Nat} {r r' : Record} (h : recordAt s i = some r) (m : MovedOn r r') :
    Evolves s (storeRecord s i r') :=
  (evolves_setRecord h m).trans (evolves_setRail _ _ _ (by simp))

theorem evolves_freeRecord (s : State) (i : Nat) : Evolves s (freeRecord s i) := by
  unfold freeRecord
  cases h : recordAt s i with
  | none => exact Evolves.refl s
  | some r =>
    refine Evolves.trans (t := setRecord s i none) ⟨rfl, fun _ => rfl, ?_⟩ (evolves_setRail _ _ _ (by simp))
    intro j x hx
    rw [recordAt_setRecord] at hx
    split at hx
    · exact absurd hx (by simp)
    · exact ⟨x, hx, MovedOn.refl x⟩

/-! ### The supply allocator -/

theorem evolves_judgeStrain (s : State) (k : Nat) : Evolves s (judgeStrain s k) :=
  evolves_setRail s k _ rfl

theorem movedOn_energize (e : RankEntry) (r : Record) : MovedOn r (energize e r) := by
  cases r with
  | mk rank pipe kind =>
    cases kind <;> exact ⟨rfl, rfl, rfl, List.Sublist.refl _⟩

theorem movedOn_waitFor (rail : Rail) (r : Record) : MovedOn r (waitFor rail r) :=
  ⟨rfl, rfl, rfl, List.Sublist.refl _⟩

theorem movedOn_settling (e : RankEntry) (r : Record) : MovedOn r (settling e r) :=
  ⟨rfl, rfl, rfl, List.Sublist.refl _⟩

theorem evolves_admitRecord {s : State} {i : Nat} {r x : Record} (h : recordAt s i = some x) (m : MovedOn x r) :
    Evolves s (admitRecord s i r) :=
  (evolves_storeRecord h (m.trans (movedOn_energize _ r))).trans (evolves_judgeStrain _ _)

theorem evolves_deferRecord {s : State} {i : Nat} {r x : Record} (h : recordAt s i = some x) (m : MovedOn x r) :
    Evolves s (deferRecord s i r) := by
  unfold deferRecord
  refine Evolves.thenBump (Evolves.trans (t := storeRecord s i (waitFor (railAt s (railOf s r)) r)) ?_ ?_) _
  · exact evolves_storeRecord h (m.trans (movedOn_waitFor _ r))
  · exact evolves_setRail _ _ { railAt (storeRecord s i (waitFor (railAt s (railOf s r)) r)) (railOf s r) with
      deferred := (railAt (storeRecord s i (waitFor (railAt s (railOf s r)) r)) (railOf s r)).deferred ++ [i] } rfl

theorem evolves_admissionRequest (s : State) (i : Nat) : Evolves s (admissionRequest s i) := by
  unfold admissionRequest
  cases h : recordAt s i with
  | none => exact Evolves.refl s
  | some r =>
    dsimp only
    split
    · exact evolves_admitRecord h (MovedOn.refl r)
    · exact evolves_deferRecord h (MovedOn.refl r)

theorem evolves_headPass (k fuel : Nat) (s : State) : Evolves s (headPass k fuel s) := by
  induction fuel generalizing s with
  | zero => exact Evolves.refl s
  | succ fuel ih =>
    unfold headPass
    split
    · exact Evolves.refl s
    · split
      · exact Evolves.refl s
      · next i rest _ _ r hr =>
        split
        · refine Evolves.trans ?_ (ih _)
          refine Evolves.trans (evolves_setRail s k { railAt s k with deferred := rest } rfl) ?_
          exact evolves_admitRecord (x := r) (by simpa using hr) (MovedOn.refl r)
        · exact Evolves.refl s

theorem evolves_resumeAt (k : Nat) (s : State) (i : Nat) : Evolves s (resumeAt k s i) := by
  unfold resumeAt
  cases h : recordAt s i with
  | none => exact Evolves.refl s
  | some r =>
    dsimp only
    split
    · exact (evolves_setRecord h (r' := { r with paused := false }) ⟨rfl, rfl, rfl, List.Sublist.refl _⟩).trans
        (evolves_admissionRequest _ _)
    · exact Evolves.refl s

theorem evolves_resumption (s : State) (k : Nat) : Evolves s (resumption s k) :=
  Evolves.foldl (fun s i => evolves_resumeAt k s i) _ s

theorem evolves_allocatorWork (s : State) (k : Nat) : Evolves s (allocatorWork s k) := by
  unfold allocatorWork
  dsimp only
  split
  · exact ((evolves_judgeStrain s k).trans (evolves_headPass _ _ _)).trans (evolves_resumption _ _)
  · exact (evolves_judgeStrain s k).trans (evolves_headPass _ _ _)

theorem evolves_workIfFell {s t : State} (h : Evolves s t) (k : Nat) : Evolves s (workIfFell s t k) := by
  unfold workIfFell
  split
  · exact h.trans (evolves_allocatorWork t k)
  · exact h

theorem evolves_workAfterRelease {s t : State} (h : Evolves s t) : Evolves s (workAfterRelease s t) := by
  unfold workAfterRelease
  refine h.trans (Evolves.foldl (f := fun u k => if railTouched s t k then allocatorWork u k else u) ?_ four t)
  intro u k
  split
  · exact evolves_allocatorWork u k
  · exact Evolves.refl u

/-! ### Settling and release -/

theorem evolves_enterSettling {s : State} {i : Nat} {r x : Record} (h : recordAt s i = some x) (m : MovedOn x r) :
    Evolves s (enterSettling s i r) :=
  evolves_storeRecord h (m.trans (movedOn_settling _ r))

theorem evolves_settleOutcome (s : State) (i : Nat) : Evolves s (settleOutcome s i) := by
  unfold settleOutcome
  cases h : recordAt s i with
  | none => exact Evolves.refl s
  | some r =>
    dsimp only
    split
    · exact evolves_freeRecord s i
    · split
      · exact evolves_setRecord h ⟨rfl, rfl, rfl, List.Sublist.refl _⟩
      · exact (evolves_setRecord h (r' := { r with restrike := false, phase := none })
          ⟨rfl, rfl, rfl, List.Sublist.refl _⟩).trans (evolves_admissionRequest _ _)

theorem evolves_settleAtOnce (s : State) (i : Nat) : Evolves s (settleAtOnce s i) := by
  unfold settleAtOnce
  cases h : recordAt s i with
  | none => exact Evolves.refl s
  | some r =>
    dsimp only
    split
    · exact evolves_settleOutcome s i
    · exact Evolves.refl s

theorem evolves_leaveDeferred (s : State) (k i : Nat) : Evolves s (leaveDeferred s k i) :=
  evolves_setRail s k _ rfl

theorem evolves_lastRelease {s : State} {i : Nat} {r x : Record} (h : recordAt s i = some x) (m : MovedOn x r) :
    Evolves s (lastRelease s i r) := by
  have settles : Evolves s (settleAtOnce (enterSettling s i r) i) :=
    (evolves_enterSettling h m).trans (evolves_settleAtOnce _ _)
  unfold lastRelease
  split
  · exact (evolves_leaveDeferred s _ i).trans (evolves_freeRecord _ i)
  · exact evolves_freeRecord s i
  · exact settles
  · exact settles
  · exact settles
  · exact settles
  · exact evolves_setRecord h (m.trans ⟨rfl, rfl, rfl, List.Sublist.refl _⟩)
  · exact evolves_setRecord h m

theorem keptClaims_sublist (pat : Pattern) (i : Nat) (r : Record) : (keptClaims pat i r).Sublist r.claims :=
  List.filter_sublist

theorem evolves_releaseVisit (pat : Pattern) (s : State) (i : Nat) : Evolves s (releaseVisit pat s i) := by
  unfold releaseVisit
  cases h : recordAt s i with
  | none => exact Evolves.refl s
  | some r =>
    dsimp only
    split
    · exact Evolves.refl s
    · split
      · exact evolves_lastRelease h ⟨rfl, rfl, rfl, List.nil_sublist _⟩
      · exact evolves_setRecord h ⟨rfl, rfl, rfl, keptClaims_sublist pat i r⟩

theorem evolves_releaseVisits (s : State) (pat : Pattern) : Evolves s (releaseVisits s pat) :=
  Evolves.foldl (fun s i => evolves_releaseVisit pat s i) _ s

/-- All a release request can do: records move on, are freed, and lose claims. -/
theorem evolves_releaseRequest (s : State) (pat : Pattern) : Evolves s (releaseRequest s pat) :=
  evolves_workAfterRelease (evolves_releaseVisits s pat)

/-! ### What a release request leaves -/

/-- Place `i` holds no claim that matches a pattern. -/
def CleanAt (pat : Pattern) (s : State) (i : Nat) : Prop :=
  ∀ r, recordAt s i = some r → ∀ c ∈ r.claims, matchesPattern pat i c = false

theorem CleanAt.of_evolves {pat : Pattern} {s t : State} {i : Nat} (h : CleanAt pat s i) (e : Evolves s t) :
    CleanAt pat t i := by
  intro r' hr' c hc
  obtain ⟨r, hr, m⟩ := e.records i r' hr'
  exact h r hr c (m.2.2.2.subset hc)

theorem cleanAt_keptClaims {pat : Pattern} {i : Nat} {r : Record} {c : Claim} (h : c ∈ keptClaims pat i r) :
    matchesPattern pat i c = false := by
  simpa using (List.mem_filter.mp h).2

/-- A record stored with no claim stays without one whatever evolves after it. -/
theorem cleanAt_of_noClaims {pat : Pattern} {s : State} {i : Nat}
    (h : ∀ r, recordAt s i = some r → r.claims = []) : CleanAt pat s i := by
  intro r hr c hc
  rw [h r hr] at hc
  exact absurd hc List.not_mem_nil

theorem noClaims_lastRelease {s : State} {i : Nat} {r : Record} (h : r.claims = []) :
    ∀ x, recordAt (lastRelease s i r) i = some x → x.claims = [] := by
  have settles : ∀ x, recordAt (settleAtOnce (enterSettling s i r) i) i = some x → x.claims = [] := by
    intro x hx
    obtain ⟨y, hy, m⟩ := (evolves_settleAtOnce (enterSettling s i r) i).records i x hx
    have hi := recordAt_lt hy
    rw [enterSettling, recordAt_storeRecord] at hy
    simp only [hi, and_self, if_true, Option.some.injEq] at hy
    have : y.claims = [] := by rw [← hy]; exact h
    exact List.sublist_nil.mp (this ▸ m.2.2.2)
  intro x hx
  unfold lastRelease at hx
  split at hx
  · simp [recordAt_freeRecord] at hx
  · simp [recordAt_freeRecord] at hx
  · exact settles x hx
  · exact settles x hx
  · exact settles x hx
  · exact settles x hx
  · have hi := recordAt_lt hx
    rw [recordAt_setRecord] at hx
    simp only [hi, and_self, if_true, Option.some.injEq] at hx
    rw [← hx]; exact h
  · have hi := recordAt_lt hx
    rw [recordAt_setRecord] at hx
    simp only [hi, and_self, if_true, Option.some.injEq] at hx
    rw [← hx]; exact h

theorem cleanAt_releaseVisit (pat : Pattern) (s : State) (i : Nat) : CleanAt pat (releaseVisit pat s i) i := by
  unfold releaseVisit
  cases h : recordAt s i with
  | none => intro r hr; rw [h] at hr; exact absurd hr (by simp)
  | some r =>
    dsimp only
    split
    · next hl =>
      intro x hx c hc
      rw [h] at hx
      obtain rfl := Option.some.inj hx
      rw [← (keptClaims_sublist pat i r).eq_of_length hl] at hc
      exact cleanAt_keptClaims hc
    · split
      · exact cleanAt_of_noClaims (noClaims_lastRelease rfl)
      · intro x hx c hc
        have hi := recordAt_lt hx
        rw [recordAt_setRecord] at hx
        simp only [hi, and_self, if_true, Option.some.injEq] at hx
        rw [← hx] at hc
        exact cleanAt_keptClaims hc

theorem cleanAt_foldl (pat : Pattern) (xs : List Nat) (s : State) (i : Nat)
    (h : i ∈ xs ∨ CleanAt pat s i) : CleanAt pat (xs.foldl (releaseVisit pat) s) i := by
  induction xs generalizing s with
  | nil =>
    rcases h with h | h
    · exact absurd h List.not_mem_nil
    · exact h
  | cons a t ih =>
    apply ih
    rcases h with h | h
    · rcases List.mem_cons.mp h with rfl | h
      · exact Or.inr (cleanAt_releaseVisit pat s i)
      · exact Or.inl h
    · exact Or.inr (h.of_evolves (evolves_releaseVisit pat s a))

/-- After a release request no record holds a claim that matches its pattern (R27). -/
theorem cleanAt_releaseRequest (s : State) (pat : Pattern) (i : Nat) : CleanAt pat (releaseRequest s pat) i := by
  have visits : CleanAt pat (releaseVisits s pat) i := by
    apply cleanAt_foldl
    by_cases h : i ∈ occupied s
    · exact Or.inl h
    · refine Or.inr ?_
      intro r hr
      exact absurd ((mem_occupied s i).mpr ⟨r, hr⟩) h
  refine visits.of_evolves (i := i) ?_
  unfold releaseRequest workAfterRelease
  refine Evolves.foldl
    (f := fun u k => if railTouched s (releaseVisits s pat) k then allocatorWork u k else u) ?_ four _
  intro u k
  split
  · exact evolves_allocatorWork u k
  · exact Evolves.refl u

/-! ### Expiries -/

theorem evolves_waitExpiry (s : State) (i : Nat) : Evolves s (waitExpiry s i) := by
  unfold waitExpiry
  cases h : recordAt s i with
  | none => exact Evolves.refl s
  | some r =>
    dsimp only
    split
    · refine Evolves.thenRaise (Evolves.thenBump ?_ _) _ _
      exact evolves_setRecord h ⟨rfl, rfl, rfl, List.Sublist.refl _⟩
    · exact Evolves.refl s

theorem evolves_pullExpiry (s : State) (i : Nat) : Evolves s (pullExpiry s i) := by
  unfold pullExpiry
  cases h : recordAt s i with
  | none => exact Evolves.refl s
  | some r =>
    dsimp only
    split
    · refine evolves_workIfFell ?_ _
      exact evolves_storeRecord h ⟨rfl, rfl, rfl, List.Sublist.refl _⟩
    · exact Evolves.refl s

theorem evolves_settleExpiry (s : State) (i : Nat) : Evolves s (settleExpiry s i) := by
  unfold settleExpiry
  cases h : recordAt s i with
  | none => exact Evolves.refl s
  | some r =>
    dsimp only
    split
    · exact evolves_settleOutcome s i
    · exact Evolves.refl s

theorem evolves_cycleOutcome (s : State) (i : Nat) : Evolves s (cycleOutcome s i) := by
  unfold cycleOutcome
  cases h : recordAt s i with
  | none => exact Evolves.refl s
  | some r =>
    dsimp only
    split
    · exact evolves_setRecord h ⟨rfl, rfl, rfl, List.Sublist.refl _⟩
    · exact (evolves_setRecord h (r' := { r with cycle := none, cycleHeld := false })
        ⟨rfl, rfl, rfl, List.Sublist.refl _⟩).trans (evolves_admissionRequest _ _)

theorem evolves_strikeExpiry (s : State) (i : Nat) : Evolves s (strikeExpiry s i) := by
  unfold strikeExpiry
  cases h : recordAt s i with
  | none => exact Evolves.refl s
  | some r =>
    dsimp only
    split
    · have settles (x : Record) (m : MovedOn r x) :
          Evolves s (settleAtOnce (workIfFell s (enterSettling s i x) (railOf s r)) i) :=
        (evolves_workIfFell (evolves_enterSettling h m) _).trans (evolves_settleAtOnce _ _)
      have rests (x : Record) (m : MovedOn r x) : Evolves s (workIfFell s (storeRecord s i x) (railOf s r)) :=
        evolves_workIfFell (evolves_storeRecord h m) _
      split
      · split
        · refine Evolves.trans (rests _ ?_) (evolves_cycleOutcome _ _)
          exact ⟨rfl, rfl, rfl, List.Sublist.refl _⟩
        · refine rests _ ?_
          exact ⟨rfl, rfl, rfl, List.Sublist.refl _⟩
      · split
        · refine settles _ ?_
          exact ⟨rfl, rfl, rfl, List.Sublist.refl _⟩
        · exact settles r (MovedOn.refl r)
    · exact Evolves.refl s

theorem evolves_cycleExpiry (s : State) (i : Nat) : Evolves s (cycleExpiry s i) := by
  unfold cycleExpiry
  cases h : recordAt s i with
  | none => exact Evolves.refl s
  | some r =>
    dsimp only
    split
    · split
      · exact evolves_cycleOutcome s i
      · exact evolves_setRecord h ⟨rfl, rfl, rfl, List.Sublist.refl _⟩
      · exact Evolves.refl s
    · exact Evolves.refl s

theorem evolves_protectionExpiry (s : State) (i : Nat) : Evolves s (protectionExpiry s i) := by
  unfold protectionExpiry
  cases h : recordAt s i with
  | none => exact Evolves.refl s
  | some r =>
    dsimp only
    split
    · refine evolves_workIfFell (Evolves.thenRaise (Evolves.thenBump ?_ _) _ _) _
      exact evolves_storeRecord h ⟨rfl, rfl, rfl, List.Sublist.refl _⟩
    · exact Evolves.refl s

end Sys2Proof.Machine
end

