-- ==== Sys2Proof/Laws/Registration.lean ====
section
/-! SUPPORT. What claims, releases and changes of the effective set can do to a state, said once. `Plays P s t`: t is s
but for the sounding table, the rails, the counters, attention and the tremulant outputs; the sounding table's invariant
is kept; and every claim held in t was held in s or is one that P allows. -/

namespace Sys2Proof.Machine

/-! ### The relation -/

/-- t is s but for the sounding table, the rails, the counters, attention and the tremulant outputs. -/
def PlayFrame (s t : State) : Prop :=
  t = { s with
    table := t.table, rails := t.rails, counters := t.counters, pendingCauses := t.pendingCauses
    details := t.details, firstCause := t.firstCause, tremulants := t.tremulants }

theorem PlayFrame.refl (s : State) : PlayFrame s s := rfl

theorem PlayFrame.trans {s t u : State} (h : PlayFrame s t) (k : PlayFrame t u) : PlayFrame s u := by
  unfold PlayFrame at *
  rw [h] at k
  exact k

theorem TableFrame.play {s t : State} (h : TableFrame s t) : PlayFrame s t := by
  unfold TableFrame at h
  unfold PlayFrame
  rw [h]

structure Plays (P : Claim → Prop) (s t : State) : Prop where
  frame : PlayFrame s t
  entries : ∀ k, (railAt t k).entry = (railAt s k).entry
  sound : TableSound s → TableSound t
  claims : ∀ c, HoldsClaim t c → HoldsClaim s c ∨ P c

namespace Plays

theorem refl (P : Claim → Prop) (s : State) : Plays P s s :=
  ⟨PlayFrame.refl s, fun _ => rfl, id, fun _ h => Or.inl h⟩

theorem trans {P : Claim → Prop} {s t u : State} (h : Plays P s t) (k : Plays P t u) : Plays P s u where
  frame := h.frame.trans k.frame
  entries := fun j => (k.entries j).trans (h.entries j)
  sound := fun x => k.sound (h.sound x)
  claims := by
    intro c hc
    rcases k.claims c hc with hc | hc
    · exact h.claims c hc
    · exact Or.inr hc

theorem mono {P Q : Claim → Prop} (hPQ : ∀ c, P c → Q c) {s t : State} (h : Plays P s t) : Plays Q s t :=
  ⟨h.frame, h.entries, h.sound, fun c hc => (h.claims c hc).imp id (hPQ c)⟩

theorem foldl {α : Type} {P : Claim → Prop} {f : State → α → State} (h : ∀ s a, Plays P s (f s a)) (xs : List α)
    (s : State) : Plays P s (xs.foldl f s) := by
  induction xs generalizing s with
  | nil => exact refl P s
  | cons a t ih => exact (h s a).trans (ih _)

/-- A fold of steps that play while a fact about the frame holds. -/
theorem foldlWhile {α : Type} {P : Claim → Prop} {f : State → α → State} {I : State → Prop}
    (keep : ∀ s t, I s → PlayFrame s t → I t) (h : ∀ s a, I s → Plays P s (f s a)) (xs : List α) (s : State)
    (hs : I s) : Plays P s (xs.foldl f s) := by
  induction xs generalizing s with
  | nil => exact refl P s
  | cons a t ih => exact (h s a hs).trans (ih _ (keep _ _ hs (h s a hs).frame))

theorem mode_eq {P : Claim → Prop} {s t : State} (h : Plays P s t) : t.mode = s.mode := by
  rw [h.frame]

end Plays

theorem tableSound_of_evolves {s t : State} (h : Evolves s t) (hs : TableSound s) : TableSound t := by
  refine ⟨?_, ?_⟩
  · intro i j r q hr hq hrank hpipe
    obtain ⟨r0, hr0, mr⟩ := h.records i r hr
    obtain ⟨q0, hq0, mq⟩ := h.records j q hq
    exact hs.1 i j r0 q0 hr0 hq0 (mr.1 ▸ mq.1 ▸ hrank) (mr.2.1 ▸ mq.2.1 ▸ hpipe)
  · intro i r hr
    obtain ⟨r0, hr0, m⟩ := h.records i r hr
    obtain ⟨hn, hl⟩ := hs.2 i r0 hr0
    exact ⟨hn.sublist m.2.2.2, m.2.2.2.length_le.trans hl⟩

theorem holdsClaim_of_evolves {s t : State} (h : Evolves s t) {c : Claim} (hc : HoldsClaim t c) : HoldsClaim s c := by
  obtain ⟨i, r', hr', hm⟩ := hc
  obtain ⟨r, hr, m⟩ := h.records i r' hr'
  exact ⟨i, r, hr, m.2.2.2.subset hm⟩

theorem Evolves.plays {s t : State} (h : Evolves s t) (P : Claim → Prop) : Plays P s t :=
  ⟨h.frame.play, h.entries, tableSound_of_evolves h, fun _ hc => Or.inl (holdsClaim_of_evolves h hc)⟩

/-! ### Claim requests -/

theorem plays_joined {s : State} {i : Nat} {r : Record} {c : Claim} (h : recordAt s i = some r) (hc : c ∉ r.claims)
    (hl : r.claims.length < Config.maxClaims) : Plays (fun x => x = c) s (setRecord s i (some (joined r c))) where
  frame := rfl
  entries := fun _ => rfl
  sound := by
    intro hs
    refine ⟨?_, ?_⟩
    · intro a b x y hx hy hrank hpipe
      rw [recordAt_setRecord] at hx hy
      split at hx <;> split at hy
      · next ha hb => exact ha.1.symm.trans hb.1
      · next ha _ =>
        obtain rfl := Option.some.inj hx
        exact ha.1.symm.trans (hs.1 i b r y h hy hrank hpipe)
      · next _ hb =>
        obtain rfl := Option.some.inj hy
        exact (hs.1 a i x r hx h hrank hpipe).trans hb.1
      · exact hs.1 a b x y hx hy hrank hpipe
    · intro a x hx
      rw [recordAt_setRecord] at hx
      split at hx
      · obtain rfl := Option.some.inj hx
        obtain ⟨hn, _⟩ := hs.2 i r h
        refine ⟨?_, ?_⟩
        · exact List.Nodup.append hn (List.nodup_singleton c) (by simpa using hc)
        · simp only [joined, List.length_append, List.length_cons, List.length_nil]
          omega
      · exact hs.2 a x hx
  claims := by
    rintro x ⟨a, y, hy, hx⟩
    rw [recordAt_setRecord] at hy
    split at hy
    · obtain rfl := Option.some.inj hy
      rcases List.mem_append.mp hx with hx | hx
      · exact Or.inl ⟨i, r, h, hx⟩
      · exact Or.inr (by simpa using hx)
    · exact Or.inl ⟨a, y, hy, hx⟩

theorem plays_newRecord {s : State} {i rank pipe : Nat} {kind : RecordKind} {c : Claim}
    (hf : findRecord s rank pipe = none) :
    Plays (fun x => x = c) s (setRecord s i (some (newRecord kind rank pipe c))) where
  frame := rfl
  entries := fun _ => rfl
  sound := by
    intro hs
    refine ⟨?_, ?_⟩
    · intro a b x y hx hy hrank hpipe
      rw [recordAt_setRecord] at hx hy
      split at hx <;> split at hy
      · next ha hb => exact ha.1.symm.trans hb.1
      · obtain rfl := Option.some.inj hx
        exact absurd ⟨hrank.symm, hpipe.symm⟩ (findRecord_none hf hy)
      · obtain rfl := Option.some.inj hy
        exact absurd ⟨hrank, hpipe⟩ (findRecord_none hf hx)
      · exact hs.1 a b x y hx hy hrank hpipe
    · intro a x hx
      rw [recordAt_setRecord] at hx
      split at hx
      · obtain rfl := Option.some.inj hx
        exact ⟨List.nodup_singleton c, by simp [newRecord, Config.maxClaims]⟩
      · exact hs.2 a x hx
  claims := by
    rintro x ⟨a, y, hy, hx⟩
    rw [recordAt_setRecord] at hy
    split at hy
    · obtain rfl := Option.some.inj hy
      exact Or.inr (by simpa [newRecord] using hx)
    · exact Or.inl ⟨a, y, hy, hx⟩

/-- All a claim request can do (R23 to R25): at most its own claim is new, and the table's invariant is kept. -/
theorem plays_claimRequest (s : State) (c : Claim) (rank pipe : Nat) :
    Plays (fun x => x = c) s (claimRequest s c rank pipe) := by
  unfold claimRequest
  split
  · next i hi =>
    cases h : recordAt s i with
    | none => exact Plays.refl _ s
    | some r =>
      dsimp only
      split
      · exact (evolves_bump s _).plays _
      · next hc =>
        split
        · exact ((evolves_bump s _).thenRaise _ _).plays _
        · next hl =>
          unfold joinClaim
          dsimp only
          split
          · exact (plays_joined h hc (Nat.lt_of_not_le hl)).trans ((evolves_admissionRequest _ _).plays _)
          · exact plays_joined h hc (Nat.lt_of_not_le hl)
  · next hf =>
    split
    · exact Plays.refl _ s
    · split
      · exact ((evolves_bump s _).thenRaise _ _).plays _
      · exact (plays_newRecord hf).trans ((evolves_admissionRequest _ _).plays _)

theorem plays_releaseRequest (P : Claim → Prop) (s : State) (pat : Pattern) : Plays P s (releaseRequest s pat) :=
  (evolves_releaseRequest s pat).plays P

/-! ### The Registration unit -/

theorem plays_retakeTremulant (P : Claim → Prop) (s : State) (rank : Nat) : Plays P s (retakeTremulant s rank) :=
  ⟨rfl, fun _ => rfl, fun h => h, fun _ h => Or.inl h⟩

/-- The claims of one key and stop (R18): its own identity, or none. -/
theorem plays_claimFor (s : State) (p : PortId) (d : Nat) (t : Touch) (k stop : Nat) :
    Plays (fun x => x = { port := p, division := d, touch := t, key := k, stop := stop }) s
      (claimFor s p d t k stop) := by
  unfold claimFor
  split
  · exact Plays.refl _ s
  · exact plays_claimRequest s _ _ _

/-- A stop coming on makes claims of its own number alone, at its division's granting port (R89). -/
theorem plays_claimHeldKeys (s : State) (n : Nat) :
    Plays (fun c => c.stop = n ∧ granting s c.division = some c.port) s (claimHeldKeys s n) := by
  unfold claimHeldKeys
  dsimp only
  cases h : granting s (stopAt s n).division with
  | none => exact Plays.refl _ s
  | some p =>
    dsimp only
    refine Plays.foldl (fun u k => (plays_claimFor u p _ _ k n).mono ?_) _ s
    rintro c rfl
    exact ⟨rfl, h⟩

theorem plays_goOff (P : Claim → Prop) (s : State) (n : Nat) : Plays P s (goOff s n) := by
  unfold goOff
  split
  · exact Plays.refl _ s
  · exact plays_retakeTremulant P s _
  · exact plays_releaseRequest P s _
  · exact plays_releaseRequest P s _

theorem plays_comeOn (claims : Bool) (s : State) (n : Nat) :
    Plays (fun c => claims = true ∧ c.stop = n ∧ granting s c.division = some c.port) s (comeOn claims s n) := by
  have held : claims = true → Plays (fun c => claims = true ∧ c.stop = n ∧ granting s c.division = some c.port) s
      (claimHeldKeys s n) := fun hc => (plays_claimHeldKeys s n).mono fun c h => ⟨hc, h⟩
  unfold comeOn
  split
  · exact Plays.refl _ s
  · exact plays_retakeTremulant _ s _
  · split
    · next hc => exact held hc
    · exact Plays.refl _ s
  · split
    · next hc => exact held hc
    · exact Plays.refl _ s

theorem granting_of_playFrame {s t : State} (h : PlayFrame s t) (d : Nat) : granting t d = granting s d := by
  rw [granting, granting, h]

/-- A change of the effective set makes claims only where the event makes them, at granting ports (R87 to R89). -/
theorem plays_changeEffective (claims : Bool) (before : StopSet) (s : State) :
    Plays (fun c => claims = true ∧ granting s c.division = some c.port) s (changeEffective claims before s) := by
  unfold changeEffective
  dsimp only
  have off := Plays.foldl (P := fun c => claims = true ∧ granting s c.division = some c.port)
    (f := goOff) (fun u n => plays_goOff _ u n) (members (before &&& ~~~ effectiveSet s)) s
  refine off.trans (Plays.foldlWhile (I := fun u => ∀ d, granting u d = granting s d) ?_ ?_ _ _ ?_)
  · intro u t hu f d
    rw [granting_of_playFrame f, hu d]
  · intro u n hu
    refine (plays_comeOn claims u n).mono ?_
    rintro c ⟨hc, _, hg⟩
    exact ⟨hc, by rw [← hu]; exact hg⟩
  · intro d
    exact granting_of_playFrame off.frame d

theorem plays_playKey (s : State) (p : PortId) (d : Nat) (t : Touch) (k : Nat) :
    Plays (fun c => c.port = p ∧ c.division = d ∧ c.touch = t ∧ c.key = k) s (playKey s p d t k) := by
  unfold playKey
  refine Plays.foldl (fun u n => (plays_claimFor u p d t k n).mono ?_) _ s
  rintro c rfl
  exact ⟨rfl, rfl, rfl, rfl⟩

/-- A key make claims for its own port, division, touch and key, and only where the port holds the grant (R83, R90). -/
theorem plays_keyMake (s : State) (p : PortId) (d : Nat) (t : Touch) (k : Nat) :
    Plays (fun c => c.port = p ∧ c.division = d ∧ holds s p d = true) s (keyMake s p d t k) := by
  unfold keyMake
  split
  · next h => exact (plays_playKey s p d t k).mono fun c hc => ⟨hc.1, hc.2.1, h⟩
  · exact (evolves_bump s _).plays _

theorem plays_keyBreak (P : Claim → Prop) (s : State) (p : PortId) (d : Nat) (t : Touch) (k : Nat) :
    Plays P s (keyBreak s p d t k) := by
  unfold keyBreak
  split
  · exact plays_releaseRequest P s _
  · exact (evolves_bump s _).plays _

theorem plays_playHeldKey (p : PortId) (d : Nat) (s : State) (k : Nat) :
    Plays (fun c => c.port = p ∧ c.division = d) s (playHeldKey p d s k) := by
  have step : ∀ (u : State) (t : Touch), Plays (fun c => c.port = p ∧ c.division = d) u (keyMake u p d t k) :=
    fun u t => (plays_keyMake u p d t k).mono fun c hc => ⟨hc.1, hc.2.1⟩
  unfold playHeldKey
  dsimp only
  split <;> split
  · exact (step s _).trans (step _ _)
  · exact step s _
  · exact step s _
  · exact Plays.refl _ s

theorem plays_playHeldKeys (s : State) (p : PortId) (d : Nat) :
    Plays (fun c => c.port = p ∧ c.division = d) s (playHeldKeys s p d) :=
  Plays.foldl (fun u k => plays_playHeldKey p d u k) _ s

end Sys2Proof.Machine
end

