-- ==== Sys2Proof/Laws/Port.lean ====
section
/-! SUPPORT. What sounds and what is registered does not look at the service port: every operation of the supply
allocator, the sounding table and the Registration unit commutes with `withPort`, which sets what data-out carried and
the response that waits. A request's work on `idleFill s`, answered, is so the same work on `answered s`. -/

namespace Sys2Proof.Machine

/-- The state with what data-out carried and the waiting response replaced. -/
def withPort (s : State) (d : List Byte) (r : Option Response) : State :=
  { s with dataOut := d, response := r }

theorem answered_eq_withPort (s : State) (st : Status) (payload : List Byte) :
    answered s st payload = withPort s [] (some { status := st, payload := payload }) := rfl

theorem idleFill_eq_withPort (s : State) : idleFill s = withPort s [] s.response := rfl

theorem respond_withPort (s : State) (d : List Byte) (r : Option Response) (x : Response) :
    respond (withPort s d r, x) = withPort s d (some x) := rfl

@[simp] theorem withPort_withPort (s : State) (d e : List Byte) (r q : Option Response) :
    withPort (withPort s d r) e q = withPort s e q := rfl

section

variable (s : State) (d : List Byte) (r : Option Response)

/-! ### What the port does not show -/

@[simp] theorem rankAt_withPort (k : Nat) : rankAt (withPort s d r) k = rankAt s k := rfl

@[simp] theorem stopAt_withPort (n : Nat) : stopAt (withPort s d r) n = stopAt s n := rfl

@[simp] theorem railAt_withPort (k : Nat) : railAt (withPort s d r) k = railAt s k := rfl

@[simp] theorem portAt_withPort (p : PortId) : portAt (withPort s d r) p = portAt s p := by cases p <;> rfl

@[simp] theorem recordAt_withPort (i : Nat) : recordAt (withPort s d r) i = recordAt s i := rfl

@[simp] theorem granting_withPort (k : Nat) : granting (withPort s d r) k = granting s k := rfl

@[simp] theorem holds_withPort (p : PortId) (k : Nat) : holds (withPort s d r) p k = holds s p k := rfl

@[simp] theorem railOf_withPort (x : Record) : railOf (withPort s d r) x = railOf s x := rfl

@[simp] theorem occupied_withPort : occupied (withPort s d r) = occupied s := rfl

@[simp] theorem findRecord_withPort (rank pipe : Nat) : findRecord (withPort s d r) rank pipe = findRecord s rank pipe :=
  rfl

@[simp] theorem lowestFree_withPort : lowestFree (withPort s d r) = lowestFree s := rfl

@[simp] theorem resolve_withPort (k key n : Nat) : resolve (withPort s d r) k key n = resolve s k key n := rfl

@[simp] theorem effective_withPort (n : Nat) : effective (withPort s d r) n = effective s n := rfl

@[simp] theorem effectiveSet_withPort : effectiveSet (withPort s d r) = effectiveSet s := rfl

@[simp] theorem tremulantNamed_withPort (k : Nat) : tremulantNamed (withPort s d r) k = tremulantNamed s k := rfl

/-! ### Flags and the places of the table -/

theorem bump_withPort (c : Counter) : bump (withPort s d r) c = withPort (bump s c) d r := rfl

theorem raise_withPort (c : Cause) (x : Detail) : raise (withPort s d r) c x = withPort (raise s c x) d r := rfl

theorem setRecord_withPort (i : Nat) (x : Option Record) :
    setRecord (withPort s d r) i x = withPort (setRecord s i x) d r := rfl

theorem setRail_withPort (k : Nat) (x : Rail) : setRail (withPort s d r) k x = withPort (setRail s k x) d r := rfl

theorem setPort_withPort (p : PortId) (c : ConsolePort) :
    setPort (withPort s d r) p c = withPort (setPort s p c) d r := by cases p <;> rfl

theorem storeRecord_withPort (i : Nat) (x : Record) :
    storeRecord (withPort s d r) i x = withPort (storeRecord s i x) d r := rfl

theorem freeRecord_withPort (i : Nat) : freeRecord (withPort s d r) i = withPort (freeRecord s i) d r := by
  unfold freeRecord
  rw [recordAt_withPort]
  split <;> rfl

/-! ### The supply allocator -/

theorem admitRecord_withPort (i : Nat) (x : Record) :
    admitRecord (withPort s d r) i x = withPort (admitRecord s i x) d r := rfl

theorem admissionRequest_withPort (i : Nat) :
    admissionRequest (withPort s d r) i = withPort (admissionRequest s i) d r := by
  unfold admissionRequest
  rw [recordAt_withPort]
  split
  · rfl
  · rw [railAt_withPort, railOf_withPort, rankAt_withPort]
    split <;> rfl

theorem headPass_withPort (k fuel : Nat) : headPass k fuel (withPort s d r) = withPort (headPass k fuel s) d r := by
  induction fuel generalizing s with
  | zero => rfl
  | succ fuel ih =>
    unfold headPass
    rw [railAt_withPort]
    split
    · rfl
    · rw [recordAt_withPort]
      split
      · rfl
      · rw [rankAt_withPort]
        split
        · rw [setRail_withPort, admitRecord_withPort, ih]
        · rfl

theorem foldl_withPort {α : Type} {f : State → α → State} (h : ∀ u a, f (withPort u d r) a = withPort (f u a) d r)
    (xs : List α) : xs.foldl f (withPort s d r) = withPort (xs.foldl f s) d r := by
  induction xs generalizing s with
  | nil => rfl
  | cons a t ih => rw [List.foldl_cons, h, ih, List.foldl_cons]

theorem resumption_withPort (k : Nat) : resumption (withPort s d r) k = withPort (resumption s k) d r := by
  unfold resumption
  rw [occupied_withPort]
  refine foldl_withPort s d r (fun u i => ?_) _
  unfold resumeAt
  rw [recordAt_withPort]
  split
  · rfl
  · rw [railOf_withPort]
    split
    · rw [setRecord_withPort, admissionRequest_withPort]
    · rfl

theorem allocatorWork_withPort (k : Nat) : allocatorWork (withPort s d r) k = withPort (allocatorWork s k) d r := by
  unfold allocatorWork
  dsimp only
  rw [show judgeStrain (withPort s d r) k = withPort (judgeStrain s k) d r from rfl, railAt_withPort, railAt_withPort,
    headPass_withPort]
  split
  · exact resumption_withPort _ d r k
  · rfl

theorem workAfterRelease_withPort (before : State) :
    workAfterRelease (withPort before d r) (withPort s d r) = withPort (workAfterRelease before s) d r := by
  unfold workAfterRelease
  rw [show railTouched (withPort before d r) (withPort s d r) = railTouched before s from rfl]
  refine foldl_withPort s d r (fun u k => ?_) _
  split
  · exact allocatorWork_withPort u d r k
  · rfl

/-! ### The sounding table -/

theorem settleOutcome_withPort (i : Nat) : settleOutcome (withPort s d r) i = withPort (settleOutcome s i) d r := by
  unfold settleOutcome
  rw [recordAt_withPort]
  split
  · rfl
  · split
    · exact freeRecord_withPort s d r i
    · split
      · rfl
      · rw [setRecord_withPort, admissionRequest_withPort]

theorem settleAtOnce_withPort (i : Nat) : settleAtOnce (withPort s d r) i = withPort (settleAtOnce s i) d r := by
  unfold settleAtOnce
  rw [recordAt_withPort]
  split
  · rfl
  · rw [rankAt_withPort]
    split
    · exact settleOutcome_withPort s d r i
    · rfl

theorem enterSettling_withPort (i : Nat) (x : Record) :
    enterSettling (withPort s d r) i x = withPort (enterSettling s i x) d r := rfl

theorem leaveDeferred_withPort (k i : Nat) :
    leaveDeferred (withPort s d r) k i = withPort (leaveDeferred s k i) d r := rfl

theorem lastRelease_withPort (i : Nat) (x : Record) :
    lastRelease (withPort s d r) i x = withPort (lastRelease s i x) d r := by
  unfold lastRelease
  rw [leaveDeferred_withPort, freeRecord_withPort, freeRecord_withPort, enterSettling_withPort, settleAtOnce_withPort]
  split <;> rfl

theorem releaseRequest_withPort (pat : Pattern) :
    releaseRequest (withPort s d r) pat = withPort (releaseRequest s pat) d r := by
  have visit (u : State) (i : Nat) : releaseVisit pat (withPort u d r) i = withPort (releaseVisit pat u i) d r := by
    unfold releaseVisit
    rw [recordAt_withPort]
    split
    · rfl
    · dsimp only
      split
      · rfl
      · split
        · exact lastRelease_withPort u d r i _
        · rfl
  unfold releaseRequest releaseVisits
  rw [occupied_withPort, foldl_withPort s d r visit, workAfterRelease_withPort]

theorem joinClaim_withPort (i : Nat) (x : Record) (c : Claim) :
    joinClaim (withPort s d r) i x c = withPort (joinClaim s i x c) d r := by
  unfold joinClaim
  dsimp only
  rw [setRecord_withPort, admissionRequest_withPort]
  split <;> rfl

theorem claimRequest_withPort (c : Claim) (rank pipe : Nat) :
    claimRequest (withPort s d r) c rank pipe = withPort (claimRequest s c rank pipe) d r := by
  unfold claimRequest
  rw [findRecord_withPort]
  split
  · rw [recordAt_withPort]
    split
    · rfl
    · split
      · rfl
      · split
        · rfl
        · exact joinClaim_withPort s d r _ _ c
  · rw [rankAt_withPort]
    split
    · rfl
    · rw [lowestFree_withPort]
      split
      · rfl
      · rw [setRecord_withPort, admissionRequest_withPort]

/-! ### The Registration unit -/

theorem claimFor_withPort (p : PortId) (k : Nat) (t : Touch) (key n : Nat) :
    claimFor (withPort s d r) p k t key n = withPort (claimFor s p k t key n) d r := by
  unfold claimFor
  rw [resolve_withPort]
  split
  · rfl
  · exact claimRequest_withPort s d r _ _ _

theorem claimHeldKeys_withPort (n : Nat) : claimHeldKeys (withPort s d r) n = withPort (claimHeldKeys s n) d r := by
  unfold claimHeldKeys
  dsimp only
  rw [stopAt_withPort, granting_withPort]
  split
  · rfl
  · rw [portAt_withPort]
    exact foldl_withPort s d r (fun u k => claimFor_withPort u d r _ _ _ k n) _

theorem retakeTremulant_withPort (k : Nat) :
    retakeTremulant (withPort s d r) k = withPort (retakeTremulant s k) d r := rfl

theorem goOff_withPort (n : Nat) : goOff (withPort s d r) n = withPort (goOff s n) d r := by
  unfold goOff
  rw [stopAt_withPort]
  split
  · rfl
  · rfl
  · exact releaseRequest_withPort s d r _
  · exact releaseRequest_withPort s d r _

theorem comeOn_withPort (claims : Bool) (n : Nat) :
    comeOn claims (withPort s d r) n = withPort (comeOn claims s n) d r := by
  unfold comeOn
  rw [stopAt_withPort, claimHeldKeys_withPort]
  split
  · rfl
  · rfl
  · split <;> rfl
  · split <;> rfl

/-- A change of the effective set does not look at the service port (R87). -/
theorem changeEffective_withPort (claims : Bool) (before : StopSet) :
    changeEffective claims before (withPort s d r) = withPort (changeEffective claims before s) d r := by
  unfold changeEffective
  dsimp only
  rw [effectiveSet_withPort, foldl_withPort s d r (fun u n => goOff_withPort u d r n),
    foldl_withPort _ d r (fun u n => comeOn_withPort u d r claims n)]

theorem playKey_withPort (p : PortId) (k : Nat) (t : Touch) (key : Nat) :
    playKey (withPort s d r) p k t key = withPort (playKey s p k t key) d r :=
  foldl_withPort s d r (fun u n => claimFor_withPort u d r p k t key n) _

theorem keyMake_withPort (p : PortId) (k : Nat) (t : Touch) (key : Nat) :
    keyMake (withPort s d r) p k t key = withPort (keyMake s p k t key) d r := by
  unfold keyMake
  rw [holds_withPort, playKey_withPort]
  split <;> rfl

theorem playHeldKey_withPort (p : PortId) (k key : Nat) :
    playHeldKey p k (withPort s d r) key = withPort (playHeldKey p k s key) d r := by
  unfold playHeldKey
  dsimp only
  rw [portAt_withPort, keyMake_withPort]
  split
  · rw [portAt_withPort, keyMake_withPort]
    split <;> rfl
  · rw [portAt_withPort, keyMake_withPort]
    split <;> rfl

theorem playHeldKeys_withPort (p : PortId) (k : Nat) :
    playHeldKeys (withPort s d r) p k = withPort (playHeldKeys s p k) d r :=
  foldl_withPort s d r (fun u key => playHeldKey_withPort u d r p k key) _

theorem undrive_withPort (p : PortId) (x : StopSet) :
    undrive (withPort s d r) p x = withPort (undrive s p x) d r := by
  unfold undrive
  dsimp only
  rw [portAt_withPort, setPort_withPort]

/-- A grant change does not look at the service port (R93). -/
theorem grantChange_withPort (k : Nat) (q : Option PortId) :
    grantChange (withPort s d r) k q = withPort (grantChange s k q) d r := by
  have release (u : State) (old : Option PortId) :
      releaseHolder (withPort u d r) k old = withPort (releaseHolder u k old) d r := by
    cases old with
    | none => rfl
    | some p => exact releaseRequest_withPort u d r _
  have cancel (u : State) (old : Option PortId) :
      undriveHolder (withPort u d r) k old = withPort (undriveHolder u k old) d r := by
    cases old with
    | none => rfl
    | some p => exact undrive_withPort u d r p _
  have play (u : State) (new : Option PortId) :
      playHolder (withPort u d r) k new = withPort (playHolder u k new) d r := by
    cases new with
    | none => rfl
    | some p => exact playHeldKeys_withPort u d r p k
  have drawn (u : State) : drawnFromTabs (withPort u d r) k q = drawnFromTabs u k q := by
    unfold drawnFromTabs
    cases q with
    | none => rfl
    | some p => dsimp only; rw [portAt_withPort]; rfl
  unfold grantChange
  dsimp only
  rw [granting_withPort, effectiveSet_withPort,
    show { withPort s d r with grants := put (withPort s d r).grants k q }
      = withPort { s with grants := put s.grants k q } d r from rfl,
    release, cancel, drawn,
    show ∀ u x, setDrawn (withPort u d r) x = withPort (setDrawn u x) d r from fun _ _ => rfl,
    changeEffective_withPort, play]

/-- A stop write in RUN does not look at the service port (R10, R11). -/
theorem rewriteStop_withPort (n : Nat) (e : StopEntry) :
    rewriteStop (withPort s d r) n e = withPort (rewriteStop s n e) d r := by
  have retire : retireStop (withPort s d r) n = withPort (retireStop s n) d r := by
    unfold retireStop
    dsimp only
    rw [stopAt_withPort,
      show setDrawn (withPort s d r) (withBit (withPort s d r).drawn n false)
        = withPort (setDrawn s (withBit s.drawn n false)) d r from rfl,
      undrive_withPort, undrive_withPort, releaseRequest_withPort]
    split <;> rfl
  unfold rewriteStop
  dsimp only
  rw [retire, show setStop (withPort (retireStop s n) d r) n e = withPort (setStop (retireStop s n) n e) d r from rfl,
    effective_withPort, comeOn_withPort]
  split <;> rfl

/-! ### The piston and Expression units -/

theorem recallPress_withPort (p : PortId) (code : Nat) :
    recallPress (withPort s d r) p code
      = (withPort (recallPress s p code).1 d r, (recallPress s p code).2) := by
  have execute (held : List Nat) :
      recallExecute (withPort s d r) p code held = withPort (recallExecute s p code held) d r := by
    unfold recallExecute
    dsimp only
    rw [effectiveSet_withPort,
      show recallRecord (withPort s d r) p code = recallRecord s p code by
        unfold recallRecord; rw [portAt_withPort]; rfl,
      show ∀ x, setDrawn (withPort s d r) x = withPort (setDrawn s x) d r from fun _ => rfl,
      changeEffective_withPort, portAt_withPort]
    exact setPort_withPort _ d r p _
  unfold recallPress
  dsimp only
  rw [show heldScope (withPort s d r) p code = heldScope s p code from rfl, portAt_withPort, execute]
  split
  · rfl
  · split
    · refine Prod.ext ?_ rfl
      unfold setRecall
      rw [portAt_withPort]
      exact setPort_withPort s d r p _
    · rfl

theorem setStage_withPort (e stage : Nat) :
    setStage (withPort s d r) e stage = withPort (setStage s e stage) d r := by
  unfold setStage
  dsimp only
  rw [effectiveSet_withPort,
    show setRun (withPort s d r) e { runAt (withPort s d r) e with stage := stage }
      = withPort (setRun s e { runAt s e with stage := stage }) d r from rfl,
    changeEffective_withPort, show exprAt (withPort s d r) e = exprAt s e from rfl]
  split <;> rfl

end

end Sys2Proof.Machine
end

