-- ==== Sys2Proof/Laws/Service.lean ====
section
/-! SUPPORT. What a request comes to, in the five ways R161, R162 and R168 give: not taken while the RESET line is
asserted, discarded, refused for the mode, refused for its length, or worked. -/

namespace Sys2Proof.Machine

theorem takesTransaction_asserted (work : State → State) {s : State} (h : s.resetLine = .asserted) :
    takesTransaction work s = idleFill s := by
  simp only [takesTransaction, h, if_true]

theorem takesTransaction_released (work : State → State) {s : State} (h : s.resetLine = .released) :
    takesTransaction work s = work s := by
  rw [takesTransaction, if_neg (by rw [h]; decide)]

theorem arrives_discarded (judge : State → State) {s : State} (hl : s.resetLine = .released)
    (h : s.response.isSome = true) : arrives judge s = discardRequest s := by
  simp only [arrives, takesTransaction_released _ hl, h, if_true]

theorem arrives_free (judge : State → State) {s : State} (h : PortFree s) : arrives judge s = judge (idleFill s) := by
  simp only [arrives, takesTransaction_released _ h.1, h.2, Option.isSome_none, Bool.false_eq_true, if_false]

theorem request_asserted (taken : Mode → Bool) (length : Nat) (params : List Byte) (work : State → State × Response)
    {s : State} (h : s.resetLine = .asserted) : request taken length params work s = idleFill s := by
  rw [request, arrives, takesTransaction_asserted _ h]

theorem request_discarded (taken : Mode → Bool) (length : Nat) (params : List Byte)
    (work : State → State × Response) {s : State} (hl : s.resetLine = .released) (h : s.response.isSome = true) :
    request taken length params work s = discardRequest s := by
  rw [request, arrives_discarded _ hl h]

theorem request_mode (taken : Mode → Bool) (length : Nat) (params : List Byte) (work : State → State × Response)
    {s : State} (h : PortFree s) (hm : taken s.mode = false) :
    request taken length params work s = answered s .mode [] := by
  simp only [request, arrives_free _ h, idleFill, hm, if_true]
  rfl

theorem request_range (taken : Mode → Bool) (length : Nat) (params : List Byte) (work : State → State × Response)
    {s : State} (h : PortFree s) (hm : taken s.mode = true) (hl : params.length ≠ length) :
    request taken length params work s = answered s .range [] := by
  simp only [request, arrives_free _ h, idleFill, hm, ne_eq, hl, not_false_eq_true, if_true]
  rfl

theorem request_work (taken : Mode → Bool) {length : Nat} {params : List Byte} (work : State → State × Response)
    {s : State} (h : PortFree s) (hm : taken s.mode = true) (hl : params.length = length) :
    request taken length params work s = respond (work (idleFill s)) := by
  simp only [request, arrives_free _ h, idleFill, hm, ne_eq, hl, not_true_eq_false]
  rfl

theorem respond_refuse (s : State) (st : Status) : respond (refuse (idleFill s) st) = answered s st [] := rfl

theorem respond_ok (s : State) (payload : List Byte) : respond (idleFill s, okWith payload) = answered s .ok payload :=
  rfl

theorem takenPlaying_of_ne {m : Mode} (h : m ≠ .quiescing) : takenPlaying m = true := by
  cases m
  · rfl
  · rfl
  · exact absurd rfl h

end Sys2Proof.Machine
end

