-- ==== Sys2Proof/Laws/Supply.lean ====
section
/-! SUPPORT. What an admission, the head-of-line pass and a release's visits do, place by place and rail by rail, in the
words of Safety.lean: `asAdmitted` is what an admission makes of a record, and `afterLastRelease` what a last release
makes of it. -/

namespace Sys2Proof.Machine

/-! ### Admission -/

theorem energize_eq_asAdmitted (e : RankEntry) (r : Record) : energize e r = asAdmitted e r := by
  cases r with
  | mk rank pipe kind => cases kind <;> rfl

theorem recordAt_judgeStrain (s : State) (k i : Nat) : recordAt (judgeStrain s k) i = recordAt s i := rfl

theorem recordAt_admitRecord (s : State) (i j : Nat) (r : Record) :
    recordAt (admitRecord s i r) j =
      if i = j ∧ i < 448 then some (asAdmitted (rankAt s r.rank) r) else recordAt s j := by
  rw [admitRecord, recordAt_judgeStrain, recordAt_storeRecord, energize_eq_asAdmitted]

theorem recordAt_deferRecord (s : State) (i j : Nat) (r : Record) :
    recordAt (deferRecord s i r) j =
      if i = j ∧ i < 448 then some (waitFor (railAt s (railOf s r)) r) else recordAt s j :=
  recordAt_storeRecord s i j _

/-- An admission request moves no record but the one that makes it. -/
theorem recordAt_admissionRequest_ne (s : State) {i j : Nat} (h : i ≠ j) :
    recordAt (admissionRequest s i) j = recordAt s j := by
  unfold admissionRequest
  split
  · rfl
  · split
    · rw [recordAt_admitRecord, if_neg fun x => h x.1]
    · rw [recordAt_deferRecord, if_neg fun x => h x.1]

/-! ### The head-of-line pass (R75) -/

theorem headPass_empty {s : State} {k : Nat} (h : (railAt s k).deferred = []) (n : Nat) : headPass k n s = s := by
  cases n with
  | zero => rfl
  | succ n => rw [headPass, h]

theorem headPass_stops {s : State} {k i : Nat} {rest : List Nat} {r : Record} (h : (railAt s k).deferred = i :: rest)
    (hr : recordAt s i = some r)
    (full : (railAt s k).entry.capacity < (railAt s k).draw + (rankAt s r.rank).pull) (n : Nat) :
    headPass k n s = s := by
  cases n with
  | zero => rfl
  | succ n =>
    rw [headPass, h]
    dsimp only
    rw [hr]
    dsimp only
    rw [if_neg (by omega)]

theorem headPass_admits {s : State} {k i : Nat} {rest : List Nat} {r : Record} (h : (railAt s k).deferred = i :: rest)
    (hr : recordAt s i = some r)
    (fits : (railAt s k).draw + (rankAt s r.rank).pull ≤ (railAt s k).entry.capacity) (n : Nat) :
    headPass k (n + 1) s =
      headPass k n (admitRecord (setRail s k { railAt s k with deferred := rest }) i r) := by
  rw [headPass, h]
  dsimp only
  rw [hr]
  dsimp only
  rw [if_pos fits]

/-! ### A last release (R33, R36, R37, R39, R53, R57, R61) -/

theorem recordAt_leaveDeferred (s : State) (k i j : Nat) : recordAt (leaveDeferred s k i) j = recordAt s j := rfl

theorem recordAt_settleOutcome_ne (s : State) {i j : Nat} (h : i ≠ j) :
    recordAt (settleOutcome s i) j = recordAt s j := by
  unfold settleOutcome
  split
  · rfl
  · split
    · rw [recordAt_freeRecord, if_neg h]
    · split
      · rw [recordAt_setRecord, if_neg fun x => h x.1]
      · rw [recordAt_admissionRequest_ne _ h, recordAt_setRecord, if_neg fun x => h x.1]

theorem recordAt_settleAtOnce_ne (s : State) {i j : Nat} (h : i ≠ j) :
    recordAt (settleAtOnce s i) j = recordAt s j := by
  unfold settleAtOnce
  split
  · rfl
  · split
    · exact recordAt_settleOutcome_ne s h
    · rfl

/-- A last release moves no record but its own. -/
theorem recordAt_lastRelease_ne (s : State) {i j : Nat} (r : Record) (h : i ≠ j) :
    recordAt (lastRelease s i r) j = recordAt s j := by
  unfold lastRelease
  split
  · rw [recordAt_freeRecord, if_neg h, recordAt_leaveDeferred]
  · rw [recordAt_freeRecord, if_neg h]
  · rw [recordAt_settleAtOnce_ne _ h, enterSettling, recordAt_storeRecord, if_neg fun x => h x.1]
  · rw [recordAt_settleAtOnce_ne _ h, enterSettling, recordAt_storeRecord, if_neg fun x => h x.1]
  · rw [recordAt_settleAtOnce_ne _ h, enterSettling, recordAt_storeRecord, if_neg fun x => h x.1]
  · rw [recordAt_settleAtOnce_ne _ h, enterSettling, recordAt_storeRecord, if_neg fun x => h x.1]
  · rw [recordAt_setRecord, if_neg fun x => h x.1]
  · rw [recordAt_setRecord, if_neg fun x => h x.1]

/-- A record that enters SETTLING with an empty list settles at its rank's minimum off time, and is freed at once where
that is 0 (R36, R39). -/
theorem recordAt_settles (s : State) {i : Nat} (r : Record) (hi : i < 448) (hc : r.claims = []) :
    recordAt (settleAtOnce (enterSettling s i r) i) i =
      if (rankAt s r.rank).minOff = 0 then none else some (settling (rankAt s r.rank) r) := by
  have h : recordAt (enterSettling s i r) i = some (settling (rankAt s r.rank) r) := by
    rw [enterSettling, recordAt_storeRecord, if_pos ⟨rfl, hi⟩]
  have hr : rankAt (enterSettling s i r) (settling (rankAt s r.rank) r).rank = rankAt s r.rank := rfl
  rw [settleAtOnce, h]
  dsimp only
  rw [hr]
  split
  · rw [settleOutcome, h]
    dsimp only
    rw [if_pos (show (settling (rankAt s r.rank) r).claims = [] from hc), recordAt_freeRecord, if_pos rfl]
  · exact h

/-- What a last release makes of its record. -/
theorem recordAt_lastRelease_same (s : State) {i : Nat} (r : Record) (hi : i < 448) :
    recordAt (lastRelease s i { r with claims := [] }) i = afterLastRelease s r := by
  unfold lastRelease afterLastRelease
  cases hst : r.state
  · simp only [recordAt_freeRecord, if_true]
  all_goals
    first
    | exact recordAt_settles s { r with claims := [] } hi rfl
    | (simp only [recordAt_freeRecord, if_true]; done)
    | (dsimp only; rw [recordAt_setRecord, if_pos ⟨rfl, hi⟩])

/-! ### A release's visits (R27) -/

/-- The claims a release request's pattern matches, index by index. -/
abbrev hits (pat : Pattern) (i : Nat) (c : Claim) : Bool :=
  matchesPattern pat i c

theorem keptClaims_eq_nil (pat : Pattern) (i : Nat) (r : Record) :
    keptClaims pat i r = [] ↔ r.claims.all (hits pat i) = true := by
  simp [keptClaims]

theorem length_keptClaims_eq (pat : Pattern) (i : Nat) (r : Record) :
    (keptClaims pat i r).length = r.claims.length ↔ keptClaims pat i r = r.claims :=
  ⟨(keptClaims_sublist pat i r).eq_of_length, fun h => by rw [h]⟩

/-- What a visit makes of its place: the last release of a record all of whose claims match, and of any other the
claims that do not match. -/
theorem recordAt_releaseVisit_same (pat : Pattern) (s : State) (i : Nat) :
    recordAt (releaseVisit pat s i) i = (recordAt s i).bind fun r =>
      if losesLast (hits pat) i r then afterLastRelease s r
      else some { r with claims := r.claims.filter fun c => !hits pat i c } := by
  unfold releaseVisit
  cases h : recordAt s i with
  | none => simpa using h
  | some r =>
    have hi := recordAt_lt h
    dsimp only [Option.bind_some]
    split
    · next hl =>
      have hk := (length_keptClaims_eq pat i r).mp hl
      have : losesLast (hits pat) i r = false := by
        cases hc : r.claims with
        | nil => simp [losesLast, hc]
        | cons c t =>
          have hn : keptClaims pat i r ≠ [] := by rw [hk, hc]; simp
          rw [Ne, keptClaims_eq_nil] at hn
          simp [losesLast, hn]
      rw [h, this]
      simp only [Bool.false_eq_true, if_false]
      exact congrArg some (by rw [show r.claims.filter (fun c => !hits pat i c) = r.claims from hk])
    · next hl =>
      split
      · next hk =>
        have : losesLast (hits pat) i r = true := by
          have hc : r.claims ≠ [] := by
            rintro hc
            exact hl (by rw [hk, hc])
          simp [losesLast, hc, (keptClaims_eq_nil pat i r).mp hk]
        rw [this, if_pos rfl]
        exact recordAt_lastRelease_same s r hi
      · next hk =>
        have : losesLast (hits pat) i r = false := by
          rw [keptClaims_eq_nil] at hk
          simp [losesLast, hk]
        rw [recordAt_setRecord, if_pos ⟨rfl, hi⟩, this]
        rfl

/-- A visit moves no record but that of its place. -/
theorem recordAt_releaseVisit_ne (pat : Pattern) (s : State) {i j : Nat} (h : i ≠ j) :
    recordAt (releaseVisit pat s i) j = recordAt s j := by
  unfold releaseVisit
  split
  · rfl
  · dsimp only
    split
    · rfl
    · split
      · exact recordAt_lastRelease_ne s _ h
      · rw [recordAt_setRecord, if_neg fun x => h x.1]

/-! ### What a visit does to the rails (R28, R71) -/

theorem ranks_releaseVisit (pat : Pattern) (s : State) (i : Nat) : (releaseVisit pat s i).ranks = s.ranks :=
  (evolves_releaseVisit pat s i).rank

theorem rankAt_releaseVisit (pat : Pattern) (s : State) (i q : Nat) :
    rankAt (releaseVisit pat s i) q = rankAt s q :=
  (evolves_releaseVisit pat s i).rankAt_eq q

theorem railAt_storeRecord (s : State) (i k : Nat) (r : Record) (hk : k < 4) :
    railAt (storeRecord s i r) k =
      if railOf s r = k then { railAt s k with draw := (railAt s k).draw + r.charge - chargeAt s i }
      else railAt s k := by
  rw [storeRecord, railAt_setRail]
  by_cases h : railOf s r = k
  · subst h; simp [hk]
  · simp [h]

theorem railAt_freeRecord (s : State) {i : Nat} {r : Record} (h : recordAt s i = some r) (k : Nat) (hk : k < 4) :
    railAt (freeRecord s i) k =
      if railOf s r = k then { railAt s k with draw := (railAt s k).draw - r.charge } else railAt s k := by
  rw [freeRecord, h]
  dsimp only
  rw [railAt_setRail]
  by_cases hr : railOf s r = k
  · subst hr; simp [hk]
  · simp [hr]

theorem railAt_leaveDeferred (s : State) (j i k : Nat) (hk : k < 4) :
    railAt (leaveDeferred s j i) k =
      if j = k then { railAt s k with deferred := (railAt s k).deferred.filter fun x => x != i } else railAt s k := by
  rw [leaveDeferred, railAt_setRail]
  by_cases h : j = k
  · subst h; simp [hk]
  · simp [h]

/-- A record that settles gives its charge back to its rail. -/
theorem railAt_settles (s : State) {i : Nat} {r x : Record} (h : recordAt s i = some x) (hx : x.charge = r.charge)
    (hc : r.claims = []) (k : Nat) (hk : k < 4) :
    railAt (settleAtOnce (enterSettling s i r) i) k =
      if railOf s r = k then { railAt s k with draw := (railAt s k).draw - r.charge } else railAt s k := by
  have hi := recordAt_lt h
  have h1 : recordAt (enterSettling s i r) i = some (settling (rankAt s r.rank) r) := by
    rw [enterSettling, recordAt_storeRecord, if_pos ⟨rfl, hi⟩]
  have hcharge : chargeAt s i = r.charge := by rw [chargeAt, h]; exact hx
  have h2 : railAt (enterSettling s i r) k =
      if railOf s r = k then { railAt s k with draw := (railAt s k).draw - r.charge } else railAt s k := by
    rw [enterSettling, railAt_storeRecord _ _ _ _ hk, hcharge]
    rfl
  rw [settleAtOnce, h1]
  dsimp only
  split
  · rw [settleOutcome, h1]
    dsimp only
    rw [if_pos (show (settling (rankAt s r.rank) r).claims = [] from hc), railAt_freeRecord _ h1 k hk, h2]
    have : (settling (rankAt s r.rank) r).charge = 0 := rfl
    rw [this]
    simp
  · exact h2

/-- What a last release gives back to the rails and takes from their lists. -/
theorem railAt_lastRelease (s : State) {i : Nat} {r : Record} (h : recordAt s i = some r) (k : Nat) (hk : k < 4) :
    railAt (lastRelease s i { r with claims := [] }) k =
      if railOf s r = k then { railAt s k with
        draw := (railAt s k).draw - (if r.state ≠ .striking ∧ r.state ≠ .settling then r.charge else 0)
        deferred := if r.state = .waiting then (railAt s k).deferred.filter fun x => x != i else (railAt s k).deferred }
      else railAt s k := by
  have settles := railAt_settles s (r := { r with claims := [] }) h rfl rfl k hk
  have same : railOf s { r with claims := [] } = railOf s r := rfl
  rw [same] at settles
  unfold lastRelease
  dsimp only
  rw [same]
  cases hst : r.state <;> dsimp only
  case waiting =>
    rw [railAt_freeRecord (leaveDeferred s (railOf s r) i) (r := r) h k hk, railAt_leaveDeferred _ _ _ _ hk]
    have : railOf (leaveDeferred s (railOf s r) i) r = railOf s r := rfl
    rw [this]
    split <;> simp
  case struck =>
    rw [railAt_freeRecord s h k hk]
    simp
  case striking =>
    rw [railAt_setRecord]
    split <;> simp
  case settling =>
    rw [railAt_setRecord]
    split <;> simp
  all_goals
    simpa [hst] using settles

/-- A visit's rail: the draw less what the place gives back, the list without the place if it leaves it. -/
theorem railAt_releaseVisit (pat : Pattern) (s : State) (i k : Nat) (hk : k < 4) :
    railAt (releaseVisit pat s i) k = { railAt s k with
      draw := (railAt s k).draw - givenBack (hits pat) s k i
      deferred := (railAt s k).deferred.filter fun x => !(x == i && leavesList (hits pat) s k i) } := by
  unfold releaseVisit givenBack leavesList
  cases h : recordAt s i with
  | none => simp
  | some r =>
    dsimp only
    have kept (hl : losesLast (hits pat) i r = false) : railAt s k = { railAt s k with
        draw := (railAt s k).draw - (if railOf s r = k ∧ losesLast (hits pat) i r = true ∧ r.state ≠ .striking
          ∧ r.state ≠ .settling then r.charge else 0)
        deferred := (railAt s k).deferred.filter fun x =>
          !(x == i && (decide (railOf s r = k) && r.state == .waiting && losesLast (hits pat) i r)) } := by
      simp [hl]
    split
    · next hl =>
      apply kept
      have hk := (length_keptClaims_eq pat i r).mp hl
      cases hc : r.claims with
      | nil => simp [losesLast, hc]
      | cons c t =>
        have hn : keptClaims pat i r ≠ [] := by rw [hk, hc]; simp
        rw [Ne, keptClaims_eq_nil] at hn
        simp [losesLast, hn]
    · next hl =>
      split
      · next hkn =>
        have hc : r.claims ≠ [] := by
          rintro hc
          exact hl (by rw [hkn, hc])
        have hlose : losesLast (hits pat) i r = true := by
          simp [losesLast, hc, (keptClaims_eq_nil pat i r).mp hkn]
        rw [railAt_lastRelease s h k hk, hlose]
        by_cases hr : railOf s r = k
        · by_cases hw : r.state = .waiting
          · simp [hr, hw, bne]
          · have hb : (r.state == .waiting) = false := by simpa using hw
            simp [hr, hw, hb]
        · simp [hr]
      · next hkn =>
        rw [railAt_setRecord]
        apply kept
        rw [keptClaims_eq_nil] at hkn
        simp [losesLast, hkn]

/-! ### A release's visits, whole (R27, R28) -/

theorem counters_freeRecord (s : State) (i : Nat) : (freeRecord s i).counters = s.counters := by
  unfold freeRecord
  split <;> rfl

theorem counters_settles (s : State) (i : Nat) (r : Record) (hc : r.claims = []) :
    (settleAtOnce (enterSettling s i r) i).counters = s.counters := by
  rw [settleAtOnce]
  cases h : recordAt (enterSettling s i r) i with
  | none => rfl
  | some x =>
    have hi := recordAt_lt h
    rw [enterSettling, recordAt_storeRecord, if_pos ⟨rfl, hi⟩] at h
    have hx : x.claims = [] := by rw [← Option.some.inj h]; exact hc
    have h' : recordAt (enterSettling s i r) i = some x := by
      rw [enterSettling, recordAt_storeRecord, if_pos ⟨rfl, hi⟩, h]
    dsimp only
    split
    · rw [settleOutcome, h']
      dsimp only
      rw [if_pos hx, counters_freeRecord]
      rfl
    · rfl

theorem counters_releaseVisit (pat : Pattern) (s : State) (i : Nat) :
    (releaseVisit pat s i).counters = s.counters := by
  unfold releaseVisit
  split
  · rfl
  · dsimp only
    split
    · rfl
    · split
      · unfold lastRelease
        split
        · exact counters_freeRecord _ _
        · exact counters_freeRecord _ _
        · exact counters_settles s i _ rfl
        · exact counters_settles s i _ rfl
        · exact counters_settles s i _ rfl
        · exact counters_settles s i _ rfl
        · rfl
        · rfl
      · rfl

theorem givenBack_congr {s t : State} {i : Nat} (hit : Nat → Claim → Bool) (k : Nat) (hr : recordAt t i = recordAt s i)
    (hq : t.ranks = s.ranks) : givenBack hit t k i = givenBack hit s k i := by
  unfold givenBack railOf rankAt
  rw [hr, hq]

theorem leavesList_congr {s t : State} {i : Nat} (hit : Nat → Claim → Bool) (k : Nat) (hr : recordAt t i = recordAt s i)
    (hq : t.ranks = s.ranks) : leavesList hit t k i = leavesList hit s k i := by
  unfold leavesList railOf rankAt
  rw [hr, hq]

theorem afterLastRelease_congr {s t : State} (hq : t.ranks = s.ranks) (r : Record) :
    afterLastRelease t r = afterLastRelease s r := by
  unfold afterLastRelease rankAt
  rw [hq]

theorem counters_visits (pat : Pattern) (xs : List Nat) (s : State) :
    (xs.foldl (releaseVisit pat) s).counters = s.counters := by
  induction xs generalizing s with
  | nil => rfl
  | cons a t ih => rw [List.foldl_cons, ih, counters_releaseVisit]

/-- The visits of places that are all different, place by place. -/
theorem recordAt_visits (pat : Pattern) (xs : List Nat) (hx : xs.Nodup) (s : State) (i : Nat) :
    recordAt (xs.foldl (releaseVisit pat) s) i =
      if i ∈ xs then recordAt (releaseVisit pat s i) i else recordAt s i := by
  induction xs generalizing s with
  | nil => simp
  | cons a t ih =>
    rw [List.foldl_cons, ih (List.nodup_cons.mp hx).2]
    by_cases ha : a = i
    · subst ha
      rw [if_neg (List.nodup_cons.mp hx).1, if_pos (List.mem_cons_self ..)]
    · have hia : ¬ i = a := fun h => ha h.symm
      by_cases hi : i ∈ t
      · rw [if_pos hi, if_pos (List.mem_cons_of_mem _ hi), recordAt_releaseVisit_same, recordAt_releaseVisit_same,
          recordAt_releaseVisit_ne pat s ha]
        simp only [afterLastRelease_congr (ranks_releaseVisit pat s a)]
      · rw [if_neg hi, if_neg (by simp [hia, hi]), recordAt_releaseVisit_ne pat s ha]

/-- The visits of places that are all different, rail by rail. -/
theorem railAt_visits (pat : Pattern) (xs : List Nat) (hx : xs.Nodup) (s : State) (k : Nat) (hk : k < 4) :
    railAt (xs.foldl (releaseVisit pat) s) k = { railAt s k with
      draw := (railAt s k).draw - (xs.map (givenBack (hits pat) s k)).sum
      deferred := (railAt s k).deferred.filter fun x => !(decide (x ∈ xs) && leavesList (hits pat) s k x) } := by
  induction xs generalizing s with
  | nil => simp
  | cons a t ih =>
    obtain ⟨ha, ht⟩ := List.nodup_cons.mp hx
    have ne (x : Nat) (h : x ∈ t) : recordAt (releaseVisit pat s a) x = recordAt s x :=
      recordAt_releaseVisit_ne pat s fun e => ha (e ▸ h)
    have hq := ranks_releaseVisit pat s a
    rw [List.foldl_cons, ih ht, railAt_releaseVisit pat s a k hk, List.map_cons, List.sum_cons]
    have hsum : t.map (givenBack (hits pat) (releaseVisit pat s a) k) = t.map (givenBack (hits pat) s k) :=
      List.map_congr_left fun x h => givenBack_congr _ k (ne x h) hq
    rw [hsum, Nat.sub_sub, List.filter_filter]
    simp only [Rail.mk.injEq, true_and]
    refine List.filter_congr fun x _ => ?_
    by_cases hxa : x = a
    · subst hxa
      simp [ha]
    · by_cases hxt : x ∈ t
      · simp [hxa, hxt, leavesList_congr (hits pat) k (ne x hxt) hq]
      · simp [hxa, hxt]

theorem pairwise_occupiedFrom (t : List (Option Record)) (k : Nat) :
    (occupiedFrom k t).Pairwise (· < ·) ∧ ∀ i ∈ occupiedFrom k t, k ≤ i ∧ i < k + t.length := by
  induction t generalizing k with
  | nil => simp [occupiedFrom]
  | cons x t ih =>
    obtain ⟨p, b⟩ := ih (k + 1)
    have b' : ∀ i ∈ occupiedFrom (k + 1) t, k + 1 ≤ i ∧ i < k + (x :: t).length := by
      intro i hi
      have := b i hi
      simp only [List.length_cons]
      omega
    cases x with
    | none => exact ⟨p, fun i hi => ⟨by have := b' i hi; omega, (b' i hi).2⟩⟩
    | some r =>
      refine ⟨List.pairwise_cons.mpr ⟨fun i hi => (b' i hi).1, p⟩, ?_⟩
      intro i hi
      rcases List.mem_cons.mp hi with rfl | hi
      · simp
      · exact ⟨by have := b' i hi; omega, (b' i hi).2⟩

/-- The indexes in use, ascending. -/
theorem pairwise_occupied (s : State) : (occupied s).Pairwise (· < ·) :=
  (pairwise_occupiedFrom _ 0).1

theorem nodup_occupied (s : State) : (occupied s).Nodup :=
  (pairwise_occupied s).imp fun h => Nat.ne_of_lt h

/-- A sum over the indexes in use is the sum over all of them, where a FREE index counts nothing. -/
theorem sum_occupied (s : State) (f : Nat → Nat) (h : ∀ i, recordAt s i = none → f i = 0) :
    ((occupied s).map f).sum = ((List.range 448).map f).sum := by
  have hp : (occupied s).Perm ((List.range 448).filter fun i => (recordAt s i).isSome) := by
    refine (List.perm_ext_iff_of_nodup (nodup_occupied s) (List.nodup_range.filter _)).mpr fun i => ?_
    rw [mem_occupied, List.mem_filter, List.mem_range, Option.isSome_iff_exists]
    exact ⟨fun ⟨r, hr⟩ => ⟨recordAt_lt hr, r, hr⟩, fun ⟨_, hr⟩ => hr⟩
  rw [(hp.map f).sum_eq]
  induction List.range 448 with
  | nil => rfl
  | cons a t ih =>
    rw [List.filter_cons, List.map_cons, List.sum_cons]
    cases ha : recordAt s a with
    | none => rw [h a ha]; simpa using ih
    | some r => simpa using ih

/-- The visits of a release request, in the words of Safety.lean. -/
theorem visitedBy_releaseVisits (s : State) (pat : Pattern) : VisitedBy (hits pat) s (releaseVisits s pat) := by
  have ev := evolves_releaseVisits s pat
  refine ⟨ev.rank, ?_, ?_, ?_⟩
  · exact counters_visits pat (occupied s) s
  · intro i
    rw [releaseVisits, recordAt_visits pat _ (nodup_occupied s)]
    split
    · exact recordAt_releaseVisit_same pat s i
    · next h =>
      have : recordAt s i = none := by
        cases hr : recordAt s i with
        | none => rfl
        | some r => exact absurd ((mem_occupied s i).mpr ⟨r, hr⟩) h
      simp [this]
  · intro k hk
    rw [releaseVisits, railAt_visits pat _ (nodup_occupied s) s k hk,
      sum_occupied s _ fun i hi => by simp [givenBack, hi]]
    simp only [Rail.mk.injEq, true_and]
    refine List.filter_congr fun x _ => ?_
    by_cases hx : x ∈ occupied s
    · simp [hx]
    · have : recordAt s x = none := by
        cases hr : recordAt s x with
        | none => rfl
        | some r => exact absurd ((mem_occupied s x).mpr ⟨r, hr⟩) hx
      simp [leavesList, this, hx]

/-- A release request, taken whole (R27, R28, R73). -/
theorem releasedBy_releaseRequest (s : State) (pat : Pattern) : ReleasedBy (hits pat) s (releaseRequest s pat) := by
  refine ⟨releaseVisits s pat, releaseRequest s pat, visitedBy_releaseVisits s pat, ?_, rfl, rfl, rfl⟩
  unfold releaseRequest workAfterRelease railTouched four
  simp only [Bool.or_eq_true, decide_eq_true_eq]

/-! ### What the allocator's work leaves alone -/

/-- The record at index `i` is neither in a deferred list nor paused: the allocator's work has no business with it. -/
def Still (i : Nat) (s : State) : Prop :=
  (∀ k, k < 4 → i ∉ (railAt s k).deferred) ∧ ∀ r, recordAt s i = some r → r.paused = false

/-- t has the record of index `i` as s has it, and still neither listed nor paused. -/
def KeepsStill (i : Nat) (s t : State) : Prop :=
  Still i s → recordAt t i = recordAt s i ∧ Still i t

theorem KeepsStill.refl (i : Nat) (s : State) : KeepsStill i s s := fun h => ⟨rfl, h⟩

theorem KeepsStill.trans {i : Nat} {s t u : State} (h : KeepsStill i s t) (k : KeepsStill i t u) : KeepsStill i s u :=
  fun hs => ⟨(k (h hs).2).1.trans (h hs).1, (k (h hs).2).2⟩

theorem KeepsStill.foldl {i : Nat} {α : Type} {f : State → α → State} (h : ∀ s a, KeepsStill i s (f s a)) (xs : List α)
    (s : State) : KeepsStill i s (xs.foldl f s) := by
  induction xs generalizing s with
  | nil => exact KeepsStill.refl i s
  | cons a t ih => exact (h s a).trans (ih _)

/-- The record of index `i` and the lists as they were, but for shorter ones and the indexes of others. -/
theorem keepsStill_of {i : Nat} {s t : State} (hr : recordAt t i = recordAt s i)
    (hd : ∀ k, k < 4 → ∀ x ∈ (railAt t k).deferred, x ∈ (railAt s k).deferred ∨ x ≠ i) : KeepsStill i s t := by
  intro h
  refine ⟨hr, fun k hk hm => ?_, fun r => by rw [hr]; exact h.2 r⟩
  rcases hd k hk i hm with h' | h'
  · exact h.1 k hk h'
  · exact h' rfl

theorem deferred_storeRecord (s : State) (i k : Nat) (r : Record) (hk : k < 4) :
    (railAt (storeRecord s i r) k).deferred = (railAt s k).deferred := by
  rw [railAt_storeRecord _ _ _ _ hk]
  split <;> rfl

theorem deferred_judgeStrain (s : State) (j k : Nat) : (railAt (judgeStrain s j) k).deferred = (railAt s k).deferred := by
  rw [judgeStrain, railAt_setRail]
  split
  · next h => rw [← h.1]
  · rfl

theorem deferred_admitRecord (s : State) (i k : Nat) (r : Record) (hk : k < 4) :
    (railAt (admitRecord s i r) k).deferred = (railAt s k).deferred := by
  rw [admitRecord, deferred_judgeStrain, deferred_storeRecord _ _ _ _ hk]

theorem deferred_deferRecord (s : State) (i k : Nat) (r : Record) (hk : k < 4) :
    (railAt (deferRecord s i r) k).deferred =
      if railOf s r = k then (railAt s k).deferred ++ [i] else (railAt s k).deferred := by
  rw [deferRecord]
  dsimp only
  rw [railAt_bump, railAt_setRail]
  by_cases h : railOf s r = k
  · subst h
    rw [if_pos ⟨rfl, hk⟩, if_pos rfl]
    dsimp only
    rw [deferred_storeRecord _ _ _ _ hk]
  · rw [if_neg fun x => h x.1, if_neg h, deferred_storeRecord _ _ _ _ hk]

theorem keepsStill_judgeStrain (i : Nat) (s : State) (k : Nat) : KeepsStill i s (judgeStrain s k) :=
  keepsStill_of rfl fun j _ x hx => Or.inl (by rwa [deferred_judgeStrain] at hx)

theorem keepsStill_admissionRequest {i j : Nat} (h : j ≠ i) (s : State) : KeepsStill i s (admissionRequest s j) := by
  refine keepsStill_of (recordAt_admissionRequest_ne s h) ?_
  intro k hk x hx
  unfold admissionRequest at hx
  split at hx
  · exact Or.inl hx
  · split at hx
    · rw [deferred_admitRecord _ _ _ _ hk] at hx
      exact Or.inl hx
    · rw [deferred_deferRecord _ _ _ _ hk] at hx
      split at hx
      · rcases List.mem_append.mp hx with hx | hx
        · exact Or.inl hx
        · exact Or.inr (by rw [List.mem_singleton.mp hx]; exact h)
      · exact Or.inl hx

/-- A pass admits records of the list alone. -/
theorem keepsStill_headPass (i k : Nat) (hk : k < 4) (n : Nat) (s : State) : KeepsStill i s (headPass k n s) := by
  induction n generalizing s with
  | zero => exact KeepsStill.refl i s
  | succ n ih =>
    cases hd : (railAt s k).deferred with
    | nil => rw [headPass_empty hd]; exact KeepsStill.refl i s
    | cons j rest =>
      cases hr : recordAt s j with
      | none =>
        have : headPass k (n + 1) s = s := by rw [headPass, hd]; dsimp only; rw [hr]
        rw [this]
        exact KeepsStill.refl i s
      | some r =>
        by_cases fits : (railAt s k).draw + (rankAt s r.rank).pull ≤ (railAt s k).entry.capacity
        · rw [headPass_admits hd hr fits]
          intro hs
          have hji : j ≠ i := by
            rintro rfl
            exact hs.1 k hk (by rw [hd]; exact List.mem_cons_self ..)
          refine (KeepsStill.trans (keepsStill_of ?_ ?_) (ih _)) hs
          · rw [recordAt_admitRecord, if_neg fun x => hji x.1, recordAt_setRail]
          · intro m hm x hx
            rw [deferred_admitRecord _ _ _ _ hm, railAt_setRail] at hx
            split at hx
            · next h =>
              refine Or.inl ?_
              rw [← h.1, hd]
              exact List.mem_cons_of_mem _ hx
            · exact Or.inl hx
        · rw [headPass_stops hd hr (Nat.lt_of_not_le fits)]
          exact KeepsStill.refl i s

theorem keepsStill_resumeAt (i k : Nat) (s : State) (j : Nat) : KeepsStill i s (resumeAt k s j) := by
  unfold resumeAt
  cases hr : recordAt s j with
  | none => exact KeepsStill.refl i s
  | some r =>
    dsimp only
    split
    · next h =>
      intro hs
      have hji : j ≠ i := by
        rintro rfl
        exact absurd (hs.2 r hr) (by rw [h.2.1]; simp)
      refine (KeepsStill.trans (keepsStill_of ?_ ?_) (keepsStill_admissionRequest hji _)) hs
      · rw [recordAt_setRecord, if_neg fun x => hji x.1]
      · exact fun _ _ x hx => Or.inl hx
    · exact KeepsStill.refl i s

/-- The allocator's work moves the records of its list and the paused ones alone. -/
theorem keepsStill_allocatorWork (i k : Nat) (hk : k < 4) (s : State) : KeepsStill i s (allocatorWork s k) := by
  unfold allocatorWork
  dsimp only
  have pass := (keepsStill_judgeStrain i s k).trans
    (keepsStill_headPass i k hk (railAt (judgeStrain s k) k).deferred.length (judgeStrain s k))
  split
  · exact pass.trans (KeepsStill.foldl (fun u j => keepsStill_resumeAt i k u j) _ _)
  · exact pass

/-- After the visits of a release, a place that was freed, or holds a record that neither waits nor is paused, is as
the visits left it when the allocator has done its work. -/
theorem recordAt_of_releasedBy {hit : Nat → Claim → Bool} {s t : State} (hd : DeferredSound s)
    (h : ReleasedBy hit s t) {i : Nat}
    (hw : ∀ r, recordAt s i = some r → losesLast hit i r = false → r.state ≠ .waiting ∧ r.paused = false)
    (hp : PausedSound s) :
    recordAt t i = (recordAt s i).bind fun r =>
      if losesLast hit i r then afterLastRelease s r
      else some { r with claims := r.claims.filter fun c => !hit i c } := by
  obtain ⟨u, w, ⟨_, _, hrec, hrail⟩, rfl, htab, _, _⟩ := h
  have still : Still i u := by
    refine ⟨fun k hk hm => ?_, fun x hx => ?_⟩
    · rw [hrail k hk, List.mem_filter] at hm
      obtain ⟨r, hr, hst, hk'⟩ := (hd k hk).2 i |>.mp hm.1
      cases hl : losesLast hit i r with
      | false => exact (hw r hr hl).1 hst
      | true => simp [leavesList, hr, hst, hl, hk'] at hm
    · rw [hrec] at hx
      cases hr : recordAt s i with
      | none => rw [hr] at hx; simp at hx
      | some r =>
        rw [hr, Option.bind_some] at hx
        cases hl : losesLast hit i r with
        | false =>
          rw [hl] at hx
          simp only [Bool.false_eq_true, if_false, Option.some.injEq] at hx
          rw [← hx]
          exact (hw r hr hl).2
        | true =>
          rw [hl, if_pos rfl] at hx
          unfold afterLastRelease at hx
          have np (hst : r.state ≠ .resting) : r.paused = false := by
            cases hq : r.paused with
            | false => rfl
            | true => exact absurd (hp i r hr hq).2 hst
          cases hst : r.state <;> rw [hst] at hx <;> dsimp only at hx
          case striking => rw [← Option.some.inj hx]; exact np (by rw [hst]; simp)
          case settling => rw [← Option.some.inj hx]; exact np (by rw [hst]; simp)
          case waiting => exact absurd hx (by simp)
          case struck => exact absurd hx (by simp)
          all_goals
            split at hx
            · exact absurd hx (by simp)
            · rw [← Option.some.inj hx]
  have work : ∀ (xs : List Nat) (v : State), (∀ k ∈ xs, k < 4) → KeepsStill i v (xs.foldl (fun v k =>
      if (railAt u k).draw < (railAt s k).draw ∨ (railAt u k).deferred.length < (railAt s k).deferred.length then
        allocatorWork v k
      else v) v) := by
    intro xs
    induction xs with
    | nil => exact fun v _ => KeepsStill.refl i v
    | cons a l ih =>
      intro v hx
      refine KeepsStill.trans ?_ (ih _ fun k hk => hx k (List.mem_cons_of_mem _ hk))
      dsimp only
      split
      · exact keepsStill_allocatorWork i a (hx a (List.mem_cons_self ..)) v
      · exact KeepsStill.refl i v
  have hi := (work [0, 1, 2, 3] u (by decide) still).1
  rw [recordAt, htab, ← recordAt, hi, hrec]

/-! ### The claims, which the allocator's work keeps -/

/-- What an admission never changes of a record. -/
def Record.demand (r : Record) : Nat × Nat × RecordKind × List Claim :=
  (r.rank, r.pipe, r.kind, r.claims)

/-- t has at each index a record of the same rank, pipe, kind and claims as s, or none where s has none. -/
def SameDemands (s t : State) : Prop :=
  ∀ i, (recordAt t i).map Record.demand = (recordAt s i).map Record.demand

theorem SameDemands.refl (s : State) : SameDemands s s := fun _ => rfl

theorem SameDemands.trans {s t u : State} (h : SameDemands s t) (k : SameDemands t u) : SameDemands s u :=
  fun i => (k i).trans (h i)

theorem SameDemands.foldl {α : Type} {f : State → α → State} (h : ∀ s a, SameDemands s (f s a)) (xs : List α)
    (s : State) : SameDemands s (xs.foldl f s) := by
  induction xs generalizing s with
  | nil => exact SameDemands.refl s
  | cons a t ih => exact (h s a).trans (ih _)

theorem demand_asAdmitted (e : RankEntry) (r : Record) : (asAdmitted e r).demand = r.demand := rfl

theorem demand_waitFor (rail : Rail) (r : Record) : (waitFor rail r).demand = r.demand := rfl

theorem sameDemands_setRecord {s : State} {i : Nat} {r x : Record} (h : recordAt s i = some r)
    (hx : x.demand = r.demand) : SameDemands s (setRecord s i (some x)) := by
  intro j
  rw [recordAt_setRecord]
  split
  · next hij => rw [← hij.1, h, Option.map_some, Option.map_some, hx]
  · rfl

theorem sameDemands_admissionRequest (s : State) (i : Nat) : SameDemands s (admissionRequest s i) := by
  unfold admissionRequest
  cases h : recordAt s i with
  | none => exact SameDemands.refl s
  | some r =>
    intro j
    dsimp only
    split
    · rw [recordAt_admitRecord]
      split
      · next hij => rw [← hij.1, h, Option.map_some, Option.map_some, demand_asAdmitted]
      · rfl
    · rw [recordAt_deferRecord]
      split
      · next hij => rw [← hij.1, h, Option.map_some, Option.map_some, demand_waitFor]
      · rfl

theorem sameDemands_headPass (k n : Nat) (s : State) : SameDemands s (headPass k n s) := by
  induction n generalizing s with
  | zero => exact SameDemands.refl s
  | succ n ih =>
    unfold headPass
    split
    · exact SameDemands.refl s
    · split
      · exact SameDemands.refl s
      · next i rest _ _ r hr =>
        split
        · refine SameDemands.trans (fun j => ?_) (ih _)
          rw [recordAt_admitRecord, recordAt_setRail]
          split
          · next hij => rw [← hij.1, hr, Option.map_some, Option.map_some, demand_asAdmitted]
          · rfl
        · exact SameDemands.refl s

theorem sameDemands_resumeAt (k : Nat) (s : State) (i : Nat) : SameDemands s (resumeAt k s i) := by
  unfold resumeAt
  cases h : recordAt s i with
  | none => exact SameDemands.refl s
  | some r =>
    dsimp only
    split
    · exact (sameDemands_setRecord (x := { r with paused := false }) h rfl).trans (sameDemands_admissionRequest _ _)
    · exact SameDemands.refl s

/-- The allocator's work makes, frees and joins nothing. -/
theorem sameDemands_allocatorWork (s : State) (k : Nat) : SameDemands s (allocatorWork s k) := by
  have judge : SameDemands s (judgeStrain s k) := fun _ => rfl
  unfold allocatorWork
  dsimp only
  split
  · exact (judge.trans (sameDemands_headPass k _ _)).trans (SameDemands.foldl (sameDemands_resumeAt k) _ _)
  · exact judge.trans (sameDemands_headPass k _ _)

end Sys2Proof.Machine
end

