-- ==== Sys2Proof/Tests/Slice0.lean ====
section
/-! SUPPORT. Tests of the model against the spec's own worked numbers, one step each; the ill-formed commands that the
checks refuse; and, for every statement with hypotheses, values that meet each of its clauses. -/

namespace Sys2Proof.Tests

open Sys2Proof.Machine

set_option Elab.async false

/-! ### Small states -/

/-- The next state of an outcome, if it has one. -/
def nextOf (o : Host.Outcome State Fault Refusal) : Option State :=
  match o with
  | .next t => some t
  | .fault _ => none
  | .refused _ => none

/-- What a command leaves, seen through a reading of the state. -/
def seen {α : Type} (f : State → α) (c : Instr) (s : State) : Option α :=
  (nextOf (exec c s)).map f

/-- Numbers as bytes. -/
def bs (xs : List Nat) : List Byte :=
  xs.map byte

/-- The status and payload of the response a command leaves. -/
def answer (t : State) : Option (Status × List Byte) :=
  t.response.map fun r => (r.status, r.payload)

/-- The Tibia Clausa of 1.6.1. -/
def tibia : RankEntry :=
  { RankEntry.unset with
    kind := .pipe, low := 24, count := 85, link := 1, slot := 2, bit := 5, rail := 1, pull := 12, hold := 4
    pullTime := 18, minOff := 6 }

/-- The Xylophone of 3.8.1. -/
def xylophone : RankEntry :=
  { RankEntry.unset with
    kind := .reiterate, low := 60, count := 37, link := 2, slot := 10, rail := 2, pull := 30, strikeTime := 8
    minOff := 4, period := 60, damper := some (20, 3) }

/-- A VOICE stop of the full manual window. -/
def voice (division rank : Nat) (offset : Int) (mode : BreakMode) : StopEntry :=
  { StopEntry.unset with
    division := division, kind := .voice, rank := rank, offset := offset, windowHigh := 60, breakMode := mode }

/-- A rail of 4.10.1. -/
def rail : Rail :=
  { Rail.unset with entry := { capacity := 300, high := 240, low := 120, deferLimit := 40 } }

/-- The stops of 1.6.1 and a tremulant, on the Tibia, the Xylophone and rank 40. -/
def organ : State :=
  { State.reset with
    ranks := put (put (put State.reset.ranks 5 tibia) 20 xylophone) 40
      { RankEntry.unset with kind := .tremulant, count := 1, link := 1, slot := 11 }
    stops := put (put (put (put (put State.reset.stops 40 (voice 1 5 (-12) .silent)) 44 (voice 1 5 12 .silent)) 90
      (voice 2 5 19 .fold)) 150 (voice 4 5 (-24) .fold)) 200
      { StopEntry.unset with division := 2, kind := .tremulant, rank := 40 }
    rails := Vector.replicate 4 rail }

/-- A link of 9.8.1. -/
def chamberLink (mode : LinkMode) : Link :=
  { Link.idle { enabled := true, slots := 12, rate := 1, mode := mode, period := 5, keepAlive := 100, downThreshold := 3 }
    with state := .up }

/-- A console port of four slots, ONLINE: keys of the Accompaniment, tabs from stop 40 on, and the pistons 0 to 15. -/
def console : ConsolePort :=
  { ConsolePort.reset with
    entry := { enabled := true, dataSlots := 4, returnSlots := 2, watchdog := 20, recovery := 2, drivePeriod := 200 }
    slotMap := put (put (put ConsolePort.reset.slotMap 0
      { kind := .keys, division := 1, touch := .first, first := 0, debounce := 2 }) 1
      { kind := .tabs, division := 0, touch := .first, first := 40, debounce := 1 }) 2
      { kind := .pistons, division := 0, touch := .first, first := 0, debounce := 1 }
    state := .online, receiver := .waiting, watchdog := some 7, level := 3 }

/-- The organ in RUN: port A ONLINE with the Accompaniment, port B ONLINE with nothing, link 1 UP. -/
def playing : State :=
  { organ with
    mode := .run, portA := console, portB := console, grants := put State.reset.grants 1 (some .A)
    links := put State.reset.links 1 (chamberLink .onDemand) }

/-- A record of the Tibia's pipe 36 as 2.8 has it. -/
def pipe36 : Record :=
  { rank := 5, pipe := 36, kind := .pipe, state := .speaking
    claims := [{ port := .B, division := 2, touch := .first, key := 24, stop := 88 }], charge := 4, phase := none
    cycle := none, protection := none, restrike := false, overdue := false, paused := false, strikeCount := 0
    cycleHeld := false }

/-- A record of the Xylophone's pipe 12. -/
def bar12 : Record :=
  { pipe36 with rank := 20, pipe := 12, kind := .reiterate, charge := 0, state := .resting, cycle := some 52 }

/-- The organ in RUN with one record at index 7. -/
def sounding (r : Record) : State :=
  setRecord playing 7 (some r)

/-! ### The checks of WellFormed, each with a term it refuses -/

theorem test_void_refuses_request_opening : Instr.wellFormed (.voidTransaction (bs [1, 0x60])) = false := by decide

theorem test_void_refuses_fetch_opening : Instr.wellFormed (.voidTransaction (bs [2])) = false := by decide

theorem test_check_failed_refuses_good_request :
    Instr.wellFormed (.requestCheckFailed (bs [0x40, 2, 5, 36, 0x94])) = false := by decide

theorem test_unknown_refuses_known_code : Instr.wellFormed (.unknownRequest 0x40 (bs [5, 36])) = false := by decide

theorem test_unknown_refuses_write_of_a_table : Instr.wellFormed (.unknownRequest 0x11 (bs [11])) = false := by decide

theorem test_request_refuses_long_parameters :
    Instr.wellFormed (.tableRead (List.replicate 256 0)) = false := by decide +kernel

theorem test_write_refuses_long_parameters :
    Instr.wellFormed (.tableWriteRank (List.replicate 255 0)) = false := by decide +kernel

theorem test_wellFormed_takes_longest :
    Instr.wellFormed (.tableWriteRank (List.replicate 254 0)) = true := by decide +kernel

/-! ### Transactions (R159, R177) -/

/-- LOOKUP of rank 5, pipe 36, bit by bit: 01, code 40, length 02, 05, 24, check 94 (11.4). -/
theorem test_lookup_bytes :
    decodeTransaction [0b00000001#8, 0b01000000#8, 0b00000010#8, 0b00000101#8, 0b00100100#8, 0b10010100#8]
      = .lookup (bs [5, 36]) := by decide

theorem test_lookup_encodes :
    encodeTransaction (.lookup (bs [5, 36])) = some (bs [0x01, 0x40, 0x02, 0x05, 0x24, 0x94]) := by decide

theorem test_bad_check_decodes :
    decodeTransaction (bs [0x01, 0x40, 0x02, 0x05, 0x24, 0x95]) = .requestCheckFailed (bs [0x40, 2, 5, 0x24, 0x95]) := by
  decide

theorem test_grant_write_decodes :
    decodeTransaction (requestTransaction 0x11 (bs [7, 2, 2])) = .tableWriteGrant (bs [2, 2]) := by decide

theorem test_fetch_decodes : decodeTransaction (bs [2, 0xFF, 0xFF, 0xFF]) = .fetch 3 := by decide

/-- SELECT falls and rises with no byte between: void by the model's choice (log 21). -/
theorem test_no_byte_is_void : decodeTransaction [] = .voidTransaction [] := by decide

theorem test_no_table_is_unknown_request :
    decodeTransaction (requestTransaction 0x11 (bs [12])) = .unknownRequest 0x11 (bs [12]) := by decide

/-- Data slots 8001, 7FFF and 0004 have the check slot FFFB (R176). -/
theorem test_check_slot : checkWord [0x8001, 0x7FFF, 0x0004] = 0xFFFB := by decide

theorem test_check_slot_of_zeros : checkWord (List.replicate 24 0) = 0xFFFF := by decide

/-! ### The step -/

theorem test_step_runs_front :
    (nextOf (step { State.reset with pending := [.readAttention [], .fetch 3] })).map (fun t => (t.pending, answer t))
      = some ([.fetch 3], some (.ok, bs [0, 0, 0x0F, 0xFF, 0, 0xFF, 0xFF, 0])) := by
  decide +kernel

theorem test_idle_step_counts_down :
    (nextOf (step { State.reset with portA := console })).map (fun t => (portAt t .A).watchdog) = some (some 6) := by
  decide +kernel

theorem test_fetch_without_response :
    seen (fun t => (t.dataOut, t.response.isSome)) (.fetch 9) State.reset = some ([], false) := by decide +kernel

/-- Data-out carries the idle fill FF beside and beyond the bytes of a response (R177). -/
theorem test_idle_fill :
    (fun t => (List.range 7).map (dataOutByte t)) { State.reset with dataOut := bs [0, 0, 0, 1, 7] }
      = bs [0xFF, 0, 0, 0, 1, 7, 0xFF] := by decide +kernel

/-- While the RESET line is asserted a request is neither answered nor counted (R168). -/
theorem test_asserted_line_takes_nothing :
    seen (fun t => (t.resetLine, t.response.isSome, t.discardTally)) (.lookup (bs [5, 36]))
      { State.reset with resetLine := .asserted, response := some { status := .ok, payload := [] } }
      = some (.asserted, true, 0) := by decide +kernel

/-! ### The worked examples -/

/-- The resolutions of 1.6.2. -/
theorem test_resolutions :
    [resolve organ 1 0 40, resolve organ 1 24 40, resolve organ 1 60 44, resolve organ 2 53 90, resolve organ 2 54 90,
      resolve organ 2 60 90, resolve organ 4 0 150, resolve organ 4 11 150, resolve organ 4 12 150]
      = [some (5, 0), some (5, 24), some (5, 84), some (5, 84), some (5, 73), some (5, 79), some (5, 0), some (5, 11),
        some (5, 0)] := by decide +kernel

/-- Pipe 36 of the Tibia is outlet 1097 (9.8.1). -/
theorem test_outlet : outlet 1 (pipePosition tibia 36) = 1097 := by decide

theorem test_key_make_pulls :
    (fun t => ((recordAt t 0).map fun r => (r.pipe, r.state, r.charge, r.phase), (railAt t 1).draw))
      (claimFor playing .A 1 .first 12 44) = (some (36, .pulling, 12, some 18), 12) := by decide +kernel

/-- Step 5 of 2.8: a pull timer's expiry drops to the hold charge. -/
theorem test_pull_expiry :
    seen (fun t => ((recordAt t 7).map fun r => (r.state, r.charge), (railAt t 1).draw)) (.pullTimerExpiry 7)
      (setRail (sounding { pipe36 with state := .pulling, charge := 12, phase := some 0 }) 1 { rail with draw := 24 })
      = some (some (.speaking, 4), 16) := by decide +kernel

/-- 3.8: the cycle expiry of a NORMAL rail strikes, with the count and the cycle timer. -/
theorem test_cycle_expiry_strikes :
    seen (fun t => (recordAt t 7).map fun r => (r.state, r.charge, r.cycle, r.strikeCount)) (.cycleTimerExpiry 7)
      (sounding { bar12 with cycle := some 0 }) = some (some (.striking, 30, some 60, 1)) := by decide +kernel

theorem test_cycle_expiry_pauses :
    seen (fun t => (recordAt t 7).map fun r => (r.state, r.cycle, r.paused)) (.cycleTimerExpiry 7)
      (setRail (sounding { bar12 with cycle := some 0 }) 2 { rail with strained := true })
      = some (some (.resting, none, true)) := by decide +kernel

/-- Record 11 of 4.10.2 would fit but waits behind 9 and 10. -/
theorem test_deferred_behind_list :
    (fun t => ((railAt t 1).deferred, (recordAt t 0).map fun r => (r.state, r.phase)))
      (claimFor (setRail playing 1 { rail with draw := 280, deferred := [9, 10] }) .A 1 .first 12 44)
      = ([9, 10, 0], some (.waiting, some 40)) := by decide +kernel

/-- The stages of 7.9. -/
def shoe : ExprEntry :=
  { enabled := true, port := some .A, slot := 10, offset := 120, low := 200, high := 3400, hysteresis := 60
    faultDetect := true, faultCount := 3, target := .shade, link := 1, outSlot := 30, outBit := 0, stages := 8 }

theorem test_stages :
    [newStage shoe 0 (corrected shoe 1520), newStage shoe 2 (corrected shoe 1600), newStage shoe 3 (corrected shoe 1470),
      newStage shoe 3 (corrected shoe 1300), newStage shoe 2 (corrected shoe 0)] = [2, 3, 3, 2, 0] := by decide

/-- 10.9: the lead is OUTLET_FAULT, the first cause SUPPLY_OVERDUE. -/
theorem test_read_attention :
    seen answer (.readAttention [])
      (raise (raise (raise State.reset .supplyOverdue (.number 17)) .outletFault (.number 1097)) .supplyOverdue (.number 22))
      = some (some (.ok, bs [0x00, 0x22, 0x0F, 0xFF, 2, 0x04, 0x49, 6])) := by decide +kernel

/-- 9.8: the outlet reported faulty enters the set, and a second frame begins at the close. -/
theorem test_reply_adds_fault :
    let words : List Word := [0, 0, 0, 0, 0x0200, 0, 0, 0, 0, 0, 0, 0]
    seen (fun t => (t.faults, (linkAt t 1).flight, look t.details 1 .none))
      (.replyPeriodClose 1 (words ++ [checkWord words]))
      (setLink (sounding pipe36) 1 { chamberLink .onDemand with flight := .reply, lastSent := onePosition 73 })
      = some ([1097], .sending, .number 1097) := by decide +kernel

theorem test_missed_reply_takes_link_down :
    seen (fun t => ((linkAt t 1).state, (linkAt t 1).miss, look t.details 0 .none)) (.replyPeriodClose 1 [])
      (setLink playing 1 { chamberLink .onDemand with flight := .reply, miss := 2 })
      = some (.down, 3, .number 1) := by decide +kernel

/-! ### Values that meet the hypotheses of each statement, clause by clause -/

/-- A response waiting at the port. -/
def outstanding (s : State) : State :=
  { s with response := some { status := .ok, payload := [7] } }

/-- The relay in QUIESCING. -/
def quiescing (s : State) : State :=
  { s with mode := .quiescing }

/-- The relay in RUN with its rails set and no rank, stop or shoe configured. -/
def bare : State :=
  { State.reset with mode := .run, rails := Vector.replicate 4 rail }

/-- A record in a state with its phase timer run out. -/
def dueIn (r : Record) (st : RecordState) : Record :=
  { r with state := st, phase := some 0 }

theorem test_hyp_idle_step : State.reset.pending = [] ∧ dueEvents State.reset = [] := by decide +kernel

/-- One event due, and two. -/
theorem test_hyp_idle_due :
    let one := setRecord bare 7 (some (dueIn pipe36 .pulling))
    one.pending = [] ∧ dueEvents one = [.pullTimerExpiry 7]
      ∧ dueEvents (setRecord one 9 (some (dueIn pipe36 .settling))) = [.pullTimerExpiry 7, .settleTimerExpiry 9] := by
  decide +kernel

theorem test_hyp_discard :
    Instr.isRequest (.lookup []) = true ∧ (outstanding State.reset).resetLine = .released
      ∧ (outstanding State.reset).response.isSome = true
      ∧ (outstanding State.reset).response = some { status := .ok, payload := [7] } ∧ [7].length + 5 ≤ 6
      ∧ Instr.lookup [] ≠ .requestDiscarded ∧ PortFree State.reset := by decide +kernel

theorem test_hyp_fetch :
    State.reset.resetLine = .released ∧ State.reset.response = none
      ∧ (outstanding State.reset).response = some { status := .ok, payload := [7] }
      ∧ (responseBytes 0 { status := .ok, payload := [7] }).length = 6 := by decide +kernel

theorem test_hyp_no_good_request :
    PortFree State.reset ∧ (0x99#8).toNat ∉ 0x11 :: 0x50 :: 0x81 :: plainCodes ∧ (0x11#8).toNat = 0x11
      ∧ (0x50#8).toNat = 0x50 ∧ (0x81#8).toNat = 0x81 ∧ PortFree (quiescing State.reset)
      ∧ (quiescing State.reset).mode = .quiescing ∧ State.reset.mode ≠ .quiescing := by decide +kernel

theorem test_hyp_mode_and_length :
    (Instr.parameters (.start [])).isSome = true ∧ PortFree playing
      ∧ Instr.takenIn (.start []) playing.mode = false ∧ Instr.takenIn (.start []) organ.mode = true
      ∧ Instr.parameters (.lookup [5]) = some [5] ∧ Instr.parameterLength (.lookup [5]) = some 2 ∧ [5].length ≠ 2
      ∧ Instr.takenIn (.lookup [5]) playing.mode = true := by decide +kernel

theorem test_hyp_table_read : PortFree playing ∧ 63 < 64 ∧ 64 < 256 := by decide +kernel

/-- Reads of no entry: a wrong length, no table, an index beyond its table, and a byte that names no port. -/
def badReads : List (List Nat) :=
  [[], [0], [2, 1], [0, 5, 5], [12, 0], [255, 0], [0, 64], [2, 3, 0], [2, 1, 64], [3, 0, 0]]
    ++ [[3, 2, 32], [4, 3], [5, 4], [6, 4], [7, 6], [8, 16, 0], [8, 0, 40], [9, 0], [9, 16], [10, 8], [11, 8]]

theorem test_table_read_out_of_range :
    ∀ x ∈ badReads, seen answer (.tableRead (bs x)) playing = some (some (.range, [])) := by decide +kernel

/-- One good entry of each table, as its bytes. -/
theorem test_hyp_entries :
    (readRankEntry (rankEntryBytes xylophone) 0 = some xylophone)
      ∧ (readStopEntry (bs [1, 1, 0, 5, 244, 0, 0, 60, 0]) 0 = some (voice 1 5 (-12) .silent))
      ∧ (readSlotEntry (bs [1, 1, 0, 60, 4]) 0).isSome = true ∧ (readReturnEntry (bs [1, 255]) 0).isSome = true
      ∧ (readPortEntry (bs [1, 64, 32, 250, 15, 1, 244]) 0).isSome = true
      ∧ (readLinkEntry (bs [1, 48, 2, 1, 0, 3, 232, 15]) 0).isSome = true
      ∧ (readRailEntry (bs [1, 44, 0, 240, 0, 120, 40]) 0 = some rail.entry)
      ∧ (readExprEntry (bs [1, 1, 10, 0, 120, 0, 200, 13, 72, 60, 1, 3, 1, 1, 30, 0, 8]) 0 = some shoe)
      ∧ (readMuteEntry (bs [15, 255, 0, 15, 1]) 0).isSome = true
      ∧ holderOfCode (byteAt (bs [2]) 0) = some (some .B) := by decide +kernel

/-- The slot and bit bytes of a STRIKE rank's absent damper are not kept, and read 0 (log 23). -/
theorem test_absent_damper_reads_zero :
    (readRankEntry (bs [2, 36, 12, 1, 20, 0, 1, 12, 0, 0, 6, 5, 0, 0, 0, 21, 3]) 0).map
        (fun e => (e.damper, (rankEntryBytes e).drop 14))
      = some (none, bs [0, 0, 0]) := by decide +kernel

/-! #### RANK and EXPRESSION writes -/

/-- A rank write of twelve pipes, or one position, on link 1. -/
def rankParams (kind slot : Nat) : List Byte :=
  bs [6, kind, 36, if kind = 5 then 1 else 12, 1, slot, 0, 1, 12, 4, 18, 6, 0, 0, 0, 0, 0, 0]

/-- A rank write of a REITERATE rank at slot 20, with its period and its damper's bit in slot 21. -/
def reiterateParams (minOff period damperSlot : Nat) : List Byte :=
  bs [6, 3, 36, 12, 1, 20, 0, 1, 12, 0, 0, minOff, 5, period, 0, 1, damperSlot, 3]

/-- The entry of a rank write goes beyond position 767, as R4 has it. -/
def RankBeyond (e : RankEntry) : Prop :=
  e.kind ≠ .unused ∧ 768 < e.slot * 16 + e.bit + e.count

/-- The entry of a rank write overlaps, as R4 has it. -/
def RankOverlaps (s : State) (r : Nat) (e : RankEntry) : Prop :=
  (∃ pos, Occupies e pos
      ∧ ((∃ q, q < 64 ∧ q ≠ r ∧ (rankAt s q).link = e.link ∧ Occupies (rankAt s q) pos)
        ∨ ∃ x, x < 8 ∧ (exprAt s x).link = e.link ∧ Shades (exprAt s x) pos))
    ∨ ∃ slot bit, e.damper = some (slot, bit) ∧ e.slot * 16 + e.bit ≤ slot * 16 + bit
      ∧ slot * 16 + bit < e.slot * 16 + e.bit + e.count

/-- The entry of a rank write misfits, as R4 and R5 have it. -/
def RankMisfits (s : State) (e : RankEntry) : Prop :=
  ((e.kind = .pipe ∨ e.kind = .held) ∧ e.pull < e.hold)
    ∨ (e.kind = .reiterate ∧ e.period < e.strikeTime + e.minOff)
    ∨ (s.mode = .run ∧ e.kind ≠ .unused ∧ e.kind ≠ .tremulant ∧ (railAt s e.rail).entry.capacity < e.pull)

/-- The rank of a rank write is in use, as R5 has it. -/
def RankInUse (s : State) (r : Nat) (e : RankEntry) : Prop :=
  s.mode = .run
    ∧ ((∃ i x, recordAt s i = some x ∧ x.rank = r)
      ∨ (((rankAt s r).kind = .tremulant ∨ e.kind = .tremulant)
        ∧ ∃ n, n < 256 ∧ (stopAt s n).kind = .tremulant ∧ (stopAt s n).rank = r ∧ effective s n = true))

theorem look_replicate_self {α : Type} (n i : Nat) (x : α) : look (Vector.replicate n x) i x = x := by
  rw [look_replicate]
  split <;> rfl

/-- Where no rank and no shoe is configured a rank overlaps nothing but its own damper. -/
theorem no_overlap (s : State) (r : Nat) (e : RankEntry) (hr : s.ranks = Vector.replicate 64 RankEntry.unset)
    (hx : s.expression = Vector.replicate 8 ExprEntry.unset)
    (hd : ∀ slot bit, e.damper = some (slot, bit) → e.slot * 16 + e.bit + e.count ≤ slot * 16 + bit) :
    ¬ RankOverlaps s r e := by
  rintro (⟨pos, _, ⟨q, _, _, _, h⟩ | ⟨x, _, _, h⟩⟩ | ⟨slot, bit, h, _, h2⟩)
  · rw [rankAt, hr, look_replicate_self] at h
    exact absurd rfl h.1
  · rw [exprAt, hx, look_replicate_self] at h
    exact absurd h.1 (by decide)
  · exact absurd h2 (Nat.not_lt.mpr (hd slot bit h))

theorem recordAt_bare (i : Nat) : recordAt bare i = none := look_replicate_self 448 i _

theorem stopAt_bare (n : Nat) : stopAt bare n = StopEntry.unset := look_replicate_self 256 n _

theorem test_hyp_rank_refused :
    (rankParams 1 20).length = 18 ∧ (reiterateParams 6 20 20).length = 18 ∧ PortFree bare ∧ bare.mode ≠ .quiescing
      ∧ 63 < byteAt (bs [64]) 0 ∧ byteAt (rankParams 1 20) 0 ≤ 63
      ∧ ¬ RankBytesFit (byteAt (rankParams 6 20)) ∧ ¬ RankBytesFit (byteAt (rankParams 1 48))
      ∧ RankBytesFit (byteAt (rankParams 1 47)) ∧ RankBytesFit (byteAt (rankParams 5 47))
      ∧ RankBytesFit (byteAt (rankParams 0 255)) ∧ RankBytesFit (byteAt (reiterateParams 6 20 47))
      ∧ ¬ RankBytesFit (byteAt (reiterateParams 6 19 47)) ∧ ¬ RankBytesFit (byteAt (reiterateParams 6 20 48))
      ∧ RankBeyond { tibia with slot := 42, bit := 12 } ∧ ¬ RankBeyond { tibia with slot := 42, bit := 11 } := by
  and_intros <;> first | decide +kernel | (unfold RankBytesFit; decide) | (unfold RankBeyond; decide)

theorem test_hyp_rank_overlaps :
    (¬ RankBeyond (rankWritten (byteAt (rankParams 1 2))) ∧ RankOverlaps organ 6 (rankWritten (byteAt (rankParams 1 2))))
      ∧ (¬ RankBeyond (rankWritten (byteAt (rankParams 1 30)))
        ∧ RankOverlaps { organ with expression := put organ.expression 7 shoe } 6
          (rankWritten (byteAt (rankParams 1 30))))
      ∧ ¬ RankBeyond (rankWritten (byteAt (reiterateParams 6 20 20)))
      ∧ RankOverlaps bare 6 (rankWritten (byteAt (reiterateParams 6 20 20))) := by
  unfold RankBeyond
  refine ⟨⟨by decide, .inl ⟨37, ⟨by decide, .inl (by decide)⟩,
      .inl ⟨5, by decide, by decide, by decide +kernel, by decide +kernel, .inl (by decide +kernel)⟩⟩⟩,
    ⟨by decide, .inl ⟨487, ⟨by decide, .inl (by decide)⟩,
      .inr ⟨7, by decide, by decide +kernel, by decide +kernel, by decide +kernel, by decide +kernel⟩⟩⟩,
    by decide, .inr ⟨20, 3, by decide, by decide, by decide⟩⟩

/-- A capacity below twelve units on rail 1. -/
def narrow : State :=
  setRail bare 1 { rail with entry := { rail.entry with capacity := 11 } }

theorem test_hyp_rank_misfits :
    (¬ RankBeyond { tibia with hold := 13 } ∧ ¬ RankOverlaps bare 6 { tibia with hold := 13 }
        ∧ RankMisfits bare { tibia with hold := 13 } ∧ ¬ RankMisfits bare { tibia with hold := 12 })
      ∧ (¬ RankOverlaps bare 6 (rankWritten (byteAt (reiterateParams 16 20 21)))
        ∧ RankMisfits bare (rankWritten (byteAt (reiterateParams 16 20 21)))
        ∧ ¬ RankMisfits bare (rankWritten (byteAt (reiterateParams 15 20 21))))
      ∧ ¬ RankOverlaps narrow 6 (rankWritten (byteAt (rankParams 1 20)))
      ∧ RankMisfits narrow (rankWritten (byteAt (rankParams 1 20))) := by
  have free (e : RankEntry) (h : e.damper = none) : ¬ RankOverlaps bare 6 e :=
    no_overlap bare 6 e rfl rfl fun slot bit hd => absurd hd (by simp [h])
  refine ⟨⟨by unfold RankBeyond; decide, free _ rfl, ?_, ?_⟩, ⟨?_, ?_, ?_⟩, ?_, ?_⟩
  · unfold RankMisfits; decide +kernel
  · unfold RankMisfits; decide +kernel
  · refine no_overlap bare 6 _ rfl rfl fun slot bit h => ?_
    obtain ⟨rfl, rfl⟩ : 21 = slot ∧ 3 = bit := by
      simpa using (show some (21, 3) = some (slot, bit) from h)
    decide
  · unfold RankMisfits; decide +kernel
  · unfold RankMisfits; decide +kernel
  · exact no_overlap narrow 6 _ rfl rfl fun slot bit h => by
      simp [show (rankWritten (byteAt (rankParams 1 20))).damper = none by decide] at h
  · unfold RankMisfits; decide +kernel

/-- The bare relay with a drawn TREMULANT stop 200 that names rank 6. -/
def shaking : State :=
  { setStop bare 200 { StopEntry.unset with kind := .tremulant, division := 2, rank := 6 } with
    drawn := BitVec.twoPow 256 200 }

theorem test_hyp_rank_stored :
    let e := rankWritten (byteAt (rankParams 1 20))
    let tremulant := rankWritten (byteAt (rankParams 5 20))
    let used := setRecord bare 7 (some { pipe36 with rank := 6 })
    RankBytesFit (byteAt (rankParams 1 20)) ∧ RankBytesFit (byteAt (rankParams 5 20))
      ∧ (¬ RankBeyond e ∧ ¬ RankOverlaps bare 6 e ∧ ¬ RankMisfits bare e ∧ ¬ RankInUse bare 6 e ∧ bare.mode = .run)
      ∧ (¬ RankOverlaps State.reset 6 e ∧ ¬ RankMisfits State.reset e ∧ ¬ RankInUse State.reset 6 e
        ∧ State.reset.mode = .config)
      ∧ (¬ RankOverlaps used 6 e ∧ ¬ RankMisfits used e ∧ RankInUse used 6 e)
      ∧ ¬ RankBeyond tremulant ∧ ¬ RankOverlaps shaking 6 tremulant ∧ ¬ RankMisfits shaking tremulant
      ∧ RankInUse shaking 6 tremulant := by
  have free (s : State) (e : RankEntry) (hr : s.ranks = Vector.replicate 64 RankEntry.unset)
      (hx : s.expression = Vector.replicate 8 ExprEntry.unset) (h : e.damper = none) : ¬ RankOverlaps s 6 e :=
    no_overlap s 6 e hr hx fun slot bit hd => absurd hd (by simp [h])
  refine ⟨?_, ?_, ⟨?_, ?_, ?_, ?_, rfl⟩, ⟨?_, ?_, ?_, rfl⟩, ⟨?_, ?_, ?_⟩, ?_, ?_, ?_, ?_⟩
  · unfold RankBytesFit; decide
  · unfold RankBytesFit; decide
  · unfold RankBeyond; decide
  · exact free bare _ rfl rfl (by decide)
  · unfold RankMisfits; decide +kernel
  · rintro ⟨_, ⟨i, x, h, _⟩ | ⟨_, n, _, h, _⟩⟩
    · rw [recordAt_bare] at h
      exact absurd h (by simp)
    · rw [stopAt_bare] at h
      exact absurd h (by decide)
  · exact free State.reset _ rfl rfl (by decide)
  · unfold RankMisfits; decide +kernel
  · exact fun h => absurd h.1 (by decide)
  · exact free _ _ rfl rfl (by decide)
  · unfold RankMisfits; decide +kernel
  · exact ⟨rfl, .inl ⟨7, { pipe36 with rank := 6 }, by decide +kernel, rfl⟩⟩
  · unfold RankBeyond; decide
  · exact free shaking _ rfl rfl (by decide)
  · unfold RankMisfits; decide +kernel
  · exact ⟨rfl, .inr ⟨.inr (by decide), 200, by decide, by decide +kernel, by decide +kernel, by decide +kernel⟩⟩

/-- The write of the shoe of 7.9 to entry 7: enabled or not, its target, its outlet's slot, and its stages. -/
def shoeParams (enabled target slot stages : Nat) : List Byte :=
  bs [7, enabled, 1, 10, 0, 120, 0, 200, 13, 72, 60, 1, 3, target, 1, slot, 0, stages]

/-- A console port with its slot 10 mapped EXPRESSION. -/
def swellPort : ConsolePort :=
  { ConsolePort.reset with slotMap := put ConsolePort.reset.slotMap 10 { SlotEntry.unset with kind := .expression } }

theorem test_hyp_expression_refused :
    (shoeParams 0 1 30 8).length = 18 ∧ PortFree organ ∧ organ.mode ≠ .quiescing ∧ 7 < byteAt (bs [8]) 0
      ∧ byteAt (shoeParams 0 1 30 8) 0 ≤ 7 ∧ ExprBytesFit (byteAt (shoeParams 0 1 47 12))
      ∧ ¬ ExprBytesFit (byteAt (shoeParams 0 1 48 8)) ∧ ¬ ExprBytesFit (byteAt (shoeParams 0 1 47 13))
      ∧ ExprBytesFit (byteAt (shoeParams 0 2 99 15)) ∧ ¬ ExprBytesFit (byteAt (shoeParams 0 2 99 16))
      ∧ ¬ ExprBytesFit (byteAt (shoeParams 2 1 30 8))
      ∧ (let e := exprWritten (byteAt (bs [7, 0, 1, 10, 0, 120, 0, 200, 13, 72, 60, 1, 3, 1, 1, 47, 15, 2]))
        e.target = .shade ∧ 768 < e.outSlot * 16 + e.outBit + e.stages)
      ∧ (let e := exprWritten (byteAt (shoeParams 1 1 30 8))
        e.enabled = true ∧ ∀ p, e.port = some p → (slotAt (portAt organ p) e.slot).kind ≠ .expression) := by
  unfold ExprBytesFit
  refine ⟨by decide +kernel, by decide +kernel, by decide +kernel, by decide, by decide, by decide, by decide, by decide,
    by decide, by decide, by decide, by decide, by decide, fun p _ => ?_⟩
  cases p <;> decide +kernel

theorem test_hyp_expression_overlaps :
    let e := exprWritten (byteAt (shoeParams 0 1 2 8))
    e.target = .shade ∧ ¬ 768 < e.outSlot * 16 + e.outBit + e.stages ∧ e.enabled = false
      ∧ (∃ pos, Shades e pos ∧ ∃ q, q < 64 ∧ (rankAt organ q).link = e.link ∧ Occupies (rankAt organ q) pos)
      ∧ ∃ pos, Shades (exprWritten (byteAt (shoeParams 0 1 30 8))) pos
        ∧ ∃ x, x < 8 ∧ x ≠ 7 ∧ (exprAt { organ with expression := put organ.expression 6 shoe } x).link = 1
          ∧ Shades (exprAt { organ with expression := put organ.expression 6 shoe } x) pos := by
  refine ⟨by decide, by decide, by decide,
    ⟨37, ⟨by decide, by decide, by decide⟩, 5, by decide, by decide +kernel, by decide +kernel, .inl (by decide +kernel)⟩,
    ⟨487, ⟨by decide, by decide, by decide⟩, 6, by decide, by decide, by decide +kernel, by decide +kernel,
      by decide +kernel, by decide +kernel⟩⟩

/-- A second crescendo shoe, and the two writes that pass: one in CONFIG and one in RUN. -/
theorem test_hyp_expression_stored :
    let e := exprWritten (byteAt (shoeParams 1 2 0 15))
    let c := { State.reset with portA := swellPort }
    let r := { bare with portA := swellPort }
    let second := { r with expression := put r.expression 6 { shoe with target := .crescendo } }
    ExprBytesFit (byteAt (shoeParams 1 2 0 15)) ∧ PortFree c ∧ PortFree r ∧ e.target ≠ .shade ∧ c.mode = .config
      ∧ r.mode = .run ∧ e.port = some .A ∧ (slotAt (portAt c .A) e.slot).kind = .expression
      ∧ (slotAt (portAt r .A) e.slot).kind = .expression ∧ (∀ pos, ¬ Shades e pos)
      ∧ (∀ x, x < 8 → (exprAt c x).enabled = false) ∧ (∀ x, x < 8 → (exprAt r x).enabled = false)
      ∧ e.enabled = true ∧ e.target = .crescendo ∧ (exprAt second 6).enabled = true
      ∧ (exprAt second 6).target = .crescendo := by
  unfold ExprBytesFit
  refine ⟨by decide, by decide +kernel, by decide +kernel, by decide, rfl, rfl, by decide, by decide +kernel,
    by decide +kernel, fun pos h => absurd h.1 (by decide), by decide +kernel, by decide +kernel, by decide, by decide,
    by decide +kernel, by decide +kernel⟩

/-! #### The other writes -/

theorem test_hyp_stop_write :
    let b := byteAt (bs [44, 1, 1, 0, 5, 12, 0, 0, 60, 0])
    (bs [44, 1, 1, 0, 5, 12, 0, 0, 60, 0]).length = 10 ∧ StopBytesFit b ∧ stopWritten b = voice 1 5 12 .silent
      ∧ ¬ StopBytesFit (byteAt (bs [44, 1, 1, 0, 5, 49, 0, 0, 60, 0]))
      ∧ StopBytesFit (byteAt (bs [44, 1, 1, 0, 5, 232, 0, 0, 60, 1]))
      ∧ ¬ StopBytesFit (byteAt (bs [44, 1, 1, 0, 5, 231, 0, 0, 60, 1]))
      ∧ StopBytesFit (byteAt (bs [44, 5, 2, 0, 63, 99, 96, 0, 31, 9]))
      ∧ ¬ StopBytesFit (byteAt (bs [44, 5, 2, 1, 63, 99, 96, 0, 31, 9]))
      ∧ StopBytesFit (byteAt (bs [44, 4, 3, 9, 63, 99, 99, 99, 99, 9]))
      ∧ StopBytesFit (byteAt (bs [44, 9, 0, 9, 99, 99, 99, 99, 99, 9]))
      ∧ organ.mode = .config ∧ playing.mode = .run ∧ PortFree organ ∧ PortFree playing
      ∧ seen (fun t => effective t 44) (.tableWriteStop (bs [44, 1, 1, 0, 5, 12, 0, 0, 60, 0])) playing = some false := by
  and_intros <;> first | decide +kernel | (unfold StopBytesFit; decide)

/-- Port A ONLINE with a stud made: slot 3 carries the Effects from stud 0 on, and stud 7 is made. -/
def studs : ConsolePort :=
  withContact { console with
    slotMap := put console.slotMap 3 { kind := .keys, division := 5, touch := .first, first := 0, debounce := 1 } } 3 7 true

/-- The relay in RUN with the Effects at port A, stud 7 made, and stop 44 drawn and driven. -/
def studded : State :=
  { playing with
    portA := { studs with recallSlot := { RecallSlot.idle with driveOn := BitVec.twoPow 256 44 } }
    grants := put playing.grants 5 (some .A), drawn := BitVec.twoPow 256 44 }

/-- Where one key contact of a port is made, that key alone reads made. -/
theorem keyReadsMade_one {c : ConsolePort} {i0 b0 : Nat}
    (one : ∀ i, i < c.entry.dataSlots → ∀ b, b < 16 → (slotAt c i).kind = .keys → (imageAt c i).getLsbD b = true →
      i = i0 ∧ b = b0)
    (made : i0 < c.entry.dataSlots ∧ b0 < 16 ∧ (slotAt c i0).kind = .keys ∧ (imageAt c i0).getLsbD b0 = true)
    (d : Nat) (t : Touch) (k : Nat) :
    KeyReadsMade c d t k ↔ (slotAt c i0).division = d ∧ (slotAt c i0).touch = t ∧ (slotAt c i0).first + b0 = k := by
  constructor
  · rintro ⟨i, b, hi, hb, hk, hd, ht, hf, hm⟩
    obtain ⟨rfl, rfl⟩ := one i hi b hb hk hm
    exact ⟨hd, ht, hf⟩
  · rintro ⟨hd, ht, hf⟩
    exact ⟨i0, b0, made.1, made.2.1, made.2.2.1, hd, ht, hf, made.2.2.2⟩

theorem keyReadsMade_studs (d : Nat) (t : Touch) (k : Nat) :
    KeyReadsMade (portAt studded .A) d t k ↔ 5 = d ∧ Touch.first = t ∧ 7 = k :=
  keyReadsMade_one (c := portAt studded .A) (i0 := 3) (b0 := 7)
    (by decide +kernel : ∀ i, i < 4 → ∀ b, b < 16 → (slotAt (portAt studded .A) i).kind = .keys →
      (imageAt (portAt studded .A) i).getLsbD b = true → i = 3 ∧ b = 7) (by decide +kernel) d t k

/-- A FIXED stop of the Effects, written in RUN with its stud held. -/
theorem test_hyp_stop_effective :
    let b := byteAt (bs [255, 5, 2, 0, 5, 0, 3, 0, 31, 0])
    StopBytesFit b ∧ PortFree studded ∧ studded.mode = .run ∧ (stopWritten b).kind = .fixed
      ∧ granting studded (stopWritten b).division = some .A ∧ [7].Pairwise (· < ·)
      ∧ (∀ k, k ∈ [7] ↔ k < (if (stopWritten b).division = 0 ∨ (stopWritten b).division = 5 then 32 else 61)
        ∧ KeyReadsMade (portAt studded .A) (stopWritten b).division (stopWritten b).touch k)
      ∧ seen (fun t => (effective t 255, (recordAt t 0).map fun r => (r.pipe, r.claims.length)))
        (.tableWriteStop (bs [255, 5, 2, 0, 5, 0, 3, 0, 31, 0])) studded = some (true, some (3, 1)) := by
  refine ⟨by unfold StopBytesFit; decide, by decide +kernel, rfl, by decide, by decide +kernel, by decide, fun k => ?_,
    by decide +kernel⟩
  rw [keyReadsMade_studs]
  constructor
  · intro h
    obtain rfl := List.mem_singleton.mp h
    decide
  · exact fun h => List.mem_singleton.mpr h.2.2.2.symm

/-- A drawn and driven stop retired (R10). -/
theorem test_stop_write_retires :
    seen (fun t => (members t.drawn, (portAt t .A).recallSlot.driveOn == 0))
      (.tableWriteStop (bs [44, 1, 1, 0, 5, 12, 0, 0, 60, 0])) studded = some ([], true) := by decide +kernel

theorem test_hyp_config_tables :
    PortFree organ ∧ organ.mode = .config ∧ byteAt (bs [2]) 0 = portCode .B
      ∧ (byteAt (bs [0]) 0 ≠ 1 ∧ byteAt (bs [0]) 0 ≠ 2) ∧ (byteAt (bs [3]) 0 ≠ 1 ∧ byteAt (bs [3]) 0 ≠ 2)
      ∧ SlotBytesFit (byteAt (bs [2, 63, 1, 1, 0, 60, 4])) ∧ (bs [2, 63, 1, 1, 0, 60, 4]).length = 7
      ∧ ¬ SlotBytesFit (byteAt (bs [2, 64, 1, 1, 0, 60, 4])) ∧ ¬ SlotBytesFit (byteAt (bs [2, 63, 1, 1, 0, 61, 4]))
      ∧ SlotBytesFit (byteAt (bs [2, 0, 4, 9, 9, 99, 9])) ∧ (bs [2, 31, 3, 255]).length = 4
      ∧ byteAt (bs [2, 31, 3, 255]) 1 ≤ 31 ∧ byteAt (bs [2, 31, 3, 255]) 2 ≤ 3 ∧ 31 < byteAt (bs [2, 32]) 1
      ∧ 3 < byteAt (bs [2, 31, 4]) 2 ∧ PortBytesFit (byteAt (bs [2, 1, 64, 32, 250, 15, 1, 244]))
      ∧ (bs [2, 1, 64, 32, 250, 15, 1, 244]).length = 8 ∧ ¬ PortBytesFit (byteAt (bs [2, 1, 2, 3, 250, 15, 1, 244]))
      ∧ ¬ PortBytesFit (byteAt (bs [2, 1, 64, 32, 250, 15, 1, 245])) := by
  and_intros <;> first | decide +kernel | (unfold SlotBytesFit; decide) | (unfold PortBytesFit; decide)

theorem test_hyp_link_and_rail_tables :
    LinkBytesFit (byteAt (bs [3, 1, 48, 2, 1, 0, 3, 232, 15])) ∧ (bs [3, 1, 48, 2, 1, 0, 3, 232, 15]).length = 9
      ∧ byteAt (bs [3]) 0 ≤ 3 ∧ 3 < byteAt (bs [4]) 0 ∧ LinkBytesFit (byteAt (bs [3, 0, 1, 0, 0, 20, 9, 9, 1]))
      ∧ ¬ LinkBytesFit (byteAt (bs [3, 1, 49, 2, 1, 0, 3, 232, 15]))
      ∧ ¬ LinkBytesFit (byteAt (bs [3, 0, 1, 0, 0, 21, 9, 9, 1]))
      ∧ RailBytesFit (byteAt (bs [3, 1, 44, 0, 240, 0, 120, 40])) ∧ (bs [3, 1, 44, 0, 240, 0, 120, 40]).length = 8
      ∧ RailBytesFit (byteAt (bs [3, 15, 255, 15, 255, 15, 254, 255]))
      ∧ ¬ RailBytesFit (byteAt (bs [3, 1, 44, 0, 120, 0, 120, 40]))
      ∧ ¬ RailBytesFit (byteAt (bs [3, 1, 44, 0, 240, 0, 120, 0])) := by
  and_intros <;> first | decide +kernel | (unfold LinkBytesFit; decide) | (unfold RailBytesFit; decide)

theorem test_hyp_grant_write :
    (bs [1, 2]).length = 2 ∧ PortFree playing ∧ PortFree organ ∧ playing.mode ≠ .quiescing ∧ 5 < byteAt (bs [6, 0]) 0
      ∧ 2 < byteAt (bs [5, 3]) 1 ∧ byteAt (bs [1, 2]) 0 ≤ 5 ∧ byteAt (bs [5, 0]) 0 ≤ 5
      ∧ byteAt (bs [1, 2]) 1 = holderCode (some .B) ∧ byteAt (bs [5, 0]) 1 = holderCode none
      ∧ organ.mode = .config ∧ playing.mode = .run ∧ granting playing 5 = none ∧ granting playing 1 = some .A
      ∧ (stopAt playing 44).kind ≠ .unused ∧ (stopAt playing 44).division = 1 ∧ (stopAt playing 90).division ≠ 1 := by
  decide +kernel

/-- Port A or B with key 12 of the Accompaniment made. -/
def pressed : ConsolePort :=
  withContact console 0 12 true

theorem keyReadsMade_pressed (d : Nat) (t : Touch) (k : Nat) :
    KeyReadsMade pressed d t k ↔ 1 = d ∧ Touch.first = t ∧ 12 = k :=
  keyReadsMade_one (c := pressed) (i0 := 0) (b0 := 12)
    (by decide +kernel : ∀ i, i < 4 → ∀ b, b < 16 → (slotAt pressed i).kind = .keys →
      (imageAt pressed i).getLsbD b = true → i = 0 ∧ b = 12) (by decide +kernel) d t k

theorem even_of_first {x : Nat} (h : Touch.first = if x % 2 = 0 then .first else .second) : x % 2 = 0 := by
  by_contra hx
  rw [if_neg hx] at h
  exact absurd h (by decide)

/-- The Accompaniment passes from port A to port B, which holds key 12 of it at FIRST touch: number 2 * 12 + 0. -/
theorem test_hyp_grant_plays :
    let s := { playing with portB := pressed }
    PortFree s ∧ s.mode = .run ∧ granting s 1 = some .A ∧ some PortId.B ≠ granting s 1 ∧ [24].Pairwise (· < ·)
      ∧ ∀ x, x ∈ [24] ↔ x / 2 < 61
        ∧ KeyReadsMade (portAt s .B) 1 (if x % 2 = 0 then .first else .second) (x / 2) := by
  refine ⟨by decide +kernel, rfl, by decide +kernel, by decide +kernel, by decide, fun x => ?_⟩
  rw [show portAt { playing with portB := pressed } .B = pressed from rfl, keyReadsMade_pressed]
  constructor
  · intro h
    obtain rfl := List.mem_singleton.mp h
    decide
  · rintro ⟨_, _, ht, hk⟩
    have hx := even_of_first ht
    exact List.mem_singleton.mpr (by omega)

/-- The drives of the old holder on the division are cancelled, and the new holder's held keys sound (R93). -/
theorem test_grant_change_plays :
    seen (fun t => ((portAt t .A).recallSlot.driveOn == 0, (recordAt t 0).map fun r => (r.pipe, r.claims.map Claim.port)))
      (.tableWriteGrant (bs [1, 2]))
      { playing with
        portA := { console with recallSlot := { RecallSlot.idle with driveOn := BitVec.twoPow 256 44 } }
        portB := { pressed with image := put pressed.image 1 0x0010 } } = some (true, some (36, [.B])) := by
  decide +kernel

theorem test_hyp_combination_and_mute :
    (bs [15, 39] ++ List.replicate 32 0xFF).length = 34 ∧ PortFree playing ∧ playing.mode ≠ .quiescing
      ∧ 15 < byteAt (bs [16, 0]) 0 ∧ 39 < byteAt (bs [0, 40]) 1 ∧ byteAt (bs [15, 39]) 0 ≤ 15
      ∧ byteAt (bs [15, 39]) 1 ≤ 39 ∧ (bs [7, 15, 255, 15, 255, 1]).length = 6 ∧ 7 < byteAt (bs [8]) 0
      ∧ 4095 < wordAt (bs [7, 16, 0, 0, 0, 1]) 1 ∧ 4095 < wordAt (bs [7, 0, 0, 16, 0, 1]) 3
      ∧ 1 < byteAt (bs [7, 0, 0, 0, 0, 2]) 5 ∧ byteAt (bs [7, 15, 255, 15, 255, 1]) 0 ≤ 7
      ∧ wordAt (bs [7, 15, 255, 15, 255, 1]) 1 ≤ 4095 ∧ wordAt (bs [7, 15, 255, 15, 255, 1]) 3 ≤ 4095
      ∧ byteAt (bs [7, 15, 255, 15, 255, 1]) 5 ≤ 1 := by decide +kernel

/-- The relay in RUN with the crescendo at stage 15, whose record holds stop 44. -/
def swelled : State :=
  setRun { playing with
    expression := put playing.expression 0 { shoe with target := .crescendo, stages := 15, faultDetect := false }
    crescendo := put playing.crescendo 14 (BitVec.twoPow 256 44) } 0
    { ExprRun.clear with stage := 15 }

theorem test_hyp_crescendo_write :
    (bs [15] ++ List.replicate 32 0xFF).length = 33 ∧ PortFree swelled ∧ swelled.mode = .run ∧ PortFree organ
      ∧ organ.mode = .config ∧ byteAt (bs [0]) 0 = 0 ∧ 15 < byteAt (bs [16]) 0 ∧ crescendoStage swelled = 15
      ∧ crescendoStage swelled ≠ 1 ∧ byteAt (bs [15]) 0 = 15 ∧ byteAt (bs [1]) 0 = 1 := by decide +kernel

/-- The write of the crescendo entry itself, disabled, while it stands at stage 15. -/
theorem test_hyp_expression_crescendo :
    let params := bs [0, 0, 1, 10, 0, 120, 0, 200, 13, 72, 60, 1, 3, 2, 9, 99, 99, 15]
    let e := exprWritten (byteAt params)
    params.length = 18 ∧ PortFree swelled ∧ swelled.mode = .run ∧ byteAt params 0 = 0 ∧ ExprBytesFit (byteAt params)
      ∧ e.target ≠ .shade ∧ e.enabled = false ∧ (∀ pos, ¬ Shades e pos) ∧ (exprAt swelled 0).enabled = true
      ∧ (exprAt swelled 0).target = .crescendo ∧ (runAt swelled 0).stage ≠ 0 ∧ (runAt swelled 1).stage = 0
      ∧ seen (fun t => (effective t 44, (runAt t 0).stage)) (.tableWriteExpression params) swelled = some (false, 0) := by
  unfold ExprBytesFit
  refine ⟨by decide, by decide +kernel, by decide +kernel, by decide, by decide, by decide, by decide,
    fun pos h => absurd h.1 (by decide), by decide +kernel, by decide +kernel, by decide +kernel, by decide +kernel,
    by decide +kernel⟩

/-- An UNUSED member of the current stage record is effective by its stored division 0 (R7, R86; log 10). -/
theorem test_unused_member :
    let s := setStop swelled 44 StopEntry.unset
    effective s 44 = false ∧ effective { s with grants := put s.grants 0 (some .A) } 44 = true := by decide +kernel

/-! #### Modes and requests -/

/-- The organ with its last rail unset, with a rank above its rail, and with a link too slow for its period. -/
def unsetRail : State := setRail organ 3 Rail.unset

def weakRail : State := setRail organ 2 { rail with entry := { rail.entry with capacity := 29 } }

def slowLink : State :=
  setLink organ 3 (Link.idle { (chamberLink .periodic).entry with slots := 48, rate := 0, period := 1 })

/-- The three offences of START, as the rules have them. -/
def BadRail (s : State) (k : Nat) : Prop :=
  (railAt s k).entry = { capacity := 0, high := 0, low := 0, deferLimit := 0 }

def BadRank (s : State) (r : Nat) : Prop :=
  (rankAt s r).kind ≠ .unused ∧ (rankAt s r).kind ≠ .tremulant
    ∧ (railAt s (rankAt s r).rail).entry.capacity < (rankAt s r).pull

def BadLink (s : State) (l : Nat) : Prop :=
  (linkAt s l).entry.enabled = true ∧ (linkAt s l).entry.mode = .periodic
    ∧ (linkAt s l).entry.period
        * (if (linkAt s l).entry.rate = 0 then 250 else if (linkAt s l).entry.rate = 1 then 500 else 1000)
      < 2 * ((linkAt s l).entry.slots + 1) * 16

theorem test_hyp_start :
    PortFree unsetRail ∧ unsetRail.mode = .config ∧ BadRail unsetRail 3 ∧ (∀ j, j < 3 → ¬ BadRail unsetRail j)
      ∧ (∀ k, k < 4 → ¬ BadRail weakRail k) ∧ BadRank weakRail 20 ∧ (∀ q, q < 20 → ¬ BadRank weakRail q)
      ∧ (∀ k, k < 4 → ¬ BadRail slowLink k) ∧ (∀ r, r < 64 → ¬ BadRank slowLink r) ∧ BadLink slowLink 3
      ∧ (∀ m, m < 3 → ¬ BadLink slowLink m) ∧ (∀ k, k < 4 → ¬ BadRail organ k) ∧ (∀ r, r < 64 → ¬ BadRank organ r)
      ∧ (∀ l, l < 4 → ¬ BadLink organ l) ∧ tableEmpty organ = true ∧ organ.mode = .config ∧ PortFree organ
      ∧ (portAt organ .A).entry.enabled = false ∧ (portAt { organ with portA := console } .A).entry.enabled = true
      ∧ (linkAt organ 3).entry.enabled = false ∧ (linkAt slowLink 3).entry.enabled = true := by
  unfold BadRail BadRank BadLink
  and_intros <;> decide +kernel

theorem test_hyp_stop_and_restart :
    PortFree playing ∧ playing.mode = .run ∧ (outstanding playing).response.isSome = true := by decide +kernel

/-- The mode after STOP: CONFIG at once with nothing in use and no link enabled, and else QUIESCING. -/
theorem test_stop_mode :
    seen (fun t => (t.mode, look t.details 11 .none, t.pendingCauses.getLsbD 11)) (.stop []) bare
        = some (.config, .none, true)
      ∧ seen (fun t => (t.mode, tableEmpty t, t.pendingCauses)) (.stop []) playing = some (.quiescing, true, 0)
      ∧ seen (fun t => (t.mode, tableEmpty t)) (.stop []) (setRecord bare 7 (some bar12)) = some (.config, true)
      ∧ seen (fun t => (t.mode, tableEmpty t)) (.stop []) { sounding pipe36 with links := State.reset.links }
        = some (.quiescing, false) := by decide +kernel

theorem test_hyp_power_on_reset :
    (∃ t, exec (.powerOnReset .asserted) playing = .next t) ∧ ∀ line, Instr.lookup [] ≠ .powerOnReset line :=
  ⟨⟨_, rfl⟩, fun line => by cases line <;> decide⟩

theorem test_hyp_silence :
    PortFree (sounding pipe36) ∧ (sounding pipe36).mode = .run ∧ findRecord (sounding pipe36) 5 36 = some 7
      ∧ recordAt (sounding pipe36) 7 = some pipe36 ∧ findRecord (sounding pipe36) 63 96 = none := by decide +kernel

theorem recordAt_playing (i : Nat) : recordAt playing i = none := by
  show look (Vector.replicate 448 none) i none = none
  simp [look_replicate]

theorem recordAt_sounding (r : Record) (i : Nat) :
    recordAt (sounding r) i = if i = 7 then some r else none := by
  rw [sounding, recordAt_setRecord, recordAt_playing]
  by_cases h : i = 7
  · simp [h]
  · simp [h, Ne.symm h]

theorem test_hyp_table_sound (r : Record) (h : r.claims.Nodup ∧ r.claims.length ≤ 12) : TableSound (sounding r) := by
  constructor
  · intro i j x y hx hy _ _
    rw [recordAt_sounding] at hx hy
    split at hx <;> split at hy <;> simp_all
  · intro i x hx
    rw [recordAt_sounding] at hx
    split at hx
    · obtain rfl := Option.some.inj hx
      exact h
    · simp at hx

theorem test_hyp_records :
    PortFree (sounding pipe36) ∧ OneRecordPerPipe (sounding pipe36) ∧ recordAt (sounding pipe36) 7 = some pipe36
      ∧ pipe36.rank = 5 ∧ pipe36.pipe = 36 ∧ (∀ k, 3 ≤ k → k < 7 → recordAt (sounding pipe36) k = none)
      ∧ (∀ k, 8 ≤ k → recordAt (sounding pipe36) k = none)
      ∧ (∀ i r, recordAt (sounding pipe36) i = some r → ¬ (r.rank = 63 ∧ r.pipe = 96)) := by
  refine ⟨by decide +kernel, (test_hyp_table_sound pipe36 (by decide)).1, by decide +kernel, rfl, rfl, ?_, ?_, ?_⟩
  · intro k _ h
    rw [recordAt_sounding, if_neg (by omega)]
  · intro k h
    rw [recordAt_sounding, if_neg (by omega)]
  · intro i r h
    rw [recordAt_sounding] at h
    split at h
    · obtain rfl := Option.some.inj h
      decide
    · simp at h

theorem test_hyp_set_level :
    PortFree organ ∧ PortFree playing ∧ organ.mode ≠ .run ∧ playing.mode = .run ∧ portOfCode 2 = some .B
      ∧ (portAt playing .B).entry.enabled = true ∧ portOfCode 0 = none ∧ portOfCode 3 = none
      ∧ (portAt { playing with portB := ConsolePort.reset } .B).entry.enabled = false := by decide +kernel

/-- The relay in RUN with a recall in progress at port A. -/
def recalling (s : State) (on off : StopSet) (pending : Option Nat) : State :=
  setRecall s .A { inProgress := true, driveOn := on, driveOff := off, timer := some 7, pendingPiston := pending }

theorem test_hyp_recall :
    PortFree playing ∧ playing.mode = .run ∧ (portAt playing .B).entry.enabled = true ∧ 2 = portCode .B
      ∧ (∀ p, 3 ≠ portCode p) ∧ (portAt { playing with portB := ConsolePort.reset } .B).entry.enabled = false
      ∧ heldScope playing .B 41 = [] ∧ heldScope playing .A 0 = [1] ∧ heldScope playing .A 39 = []
      ∧ heldScope playing .A 46 = [] ∧ heldScope playing .A 43 = [1]
      ∧ (portAt (recalling playing 0 0 none) .A).recallSlot.inProgress = true
      ∧ heldScope (recalling playing 0 0 none) .A 16 = [1] ∧ (portAt playing .A).recallSlot.inProgress = false
      ∧ (stopAt playing 44).kind ≠ .unused ∧ (stopAt playing 44).division = 1 ∧ (stopAt playing 90).division = 2 := by
  refine ⟨by decide +kernel, rfl, by decide +kernel, rfl, fun p => by cases p <;> decide, ?_⟩
  decide +kernel

theorem test_hyp_status_and_counters :
    PortFree playing ∧ playing.mode ≠ .quiescing ∧ (quiescing playing).mode = .quiescing ∧ PortFree (quiescing playing)
      ∧ (∀ l, Counter.discardedRequests = .framesSent l ∨ Counter.discardedRequests = .repliesMissed l → l < 4)
      ∧ Counter.place .discardedRequests ≠ Counter.place (.repliesMissed 3) ∧ attentionLine playing = false
      ∧ playing.enabledCauses.getLsbD (Cause.bit .quiesced) = true
      ∧ attentionLine (raise playing .linkDown .none) = true
      ∧ (BitVec.ofNat 12 1).getLsbD (Cause.bit .quiesced) = false ∧ Cause.quiesced ≠ .linkDown := by
  refine ⟨by decide +kernel, by decide +kernel, rfl, by decide +kernel, fun l h => ?_, ?_⟩
  · rcases h with h | h <;> exact absurd h (by simp)
  · decide +kernel

theorem test_status_out_of_range :
    seen answer (.readStatusPort (bs [0])) playing = some (some (.range, []))
      ∧ seen answer (.readStatusPort (bs [3])) playing = some (some (.range, []))
      ∧ seen answer (.readStatusRail (bs [4])) playing = some (some (.range, []))
      ∧ seen answer (.readStatusLink (bs [4])) playing = some (some (.range, []))
      ∧ seen answer (.readStatusExpression (bs [8])) playing = some (some (.range, [])) := by decide +kernel

theorem test_hyp_attention :
    let s := raise (raise playing .quiesced .none) .combinationChanged (.port .A)
    PortFree s ∧ s.mode ≠ .quiescing ∧ s.pendingCauses.getLsbD (Cause.bit .combinationChanged) = true
      ∧ s.enabledCauses.getLsbD (Cause.bit .combinationChanged) = true
      ∧ (∀ b ∈ allCauses, Cause.bit b < Cause.bit .combinationChanged →
          (s.pendingCauses &&& s.enabledCauses).getLsbD (Cause.bit b) = false)
      ∧ attentionLine playing = false ∧ (bs [16, 0]).length = 2 ∧ 4096 ≤ wordAt (bs [16, 0]) 0
      ∧ wordAt (bs [15, 255]) 0 < 4096 := by decide +kernel

theorem test_hyp_capture :
    let full := { playing with dirty := (List.range 32).map fun n => (0, n) }
    heldScope playing .A 9 ≠ [] ∧ heldScope playing .A 16 ≠ [] ∧ (portAt playing .A).level ≤ 15
      ∧ (stopAt playing 44).kind ≠ .unused ∧ (stopAt playing 44).division ∈ heldScope playing .A 9
      ∧ (stopAt playing 90).division ∉ heldScope playing .A 9 ∧ playing.dirty = [] ∧ full.dirty.length = 32
      ∧ (3, 16) ∉ full.dirty ∧ PortFree playing := by decide +kernel

/-- The pistons from 40 on at slot 3 of port A, with SET made. -/
def setting : ConsolePort :=
  withContact { console with
    slotMap := put console.slotMap 3 { kind := .pistons, division := 0, touch := .first, first := 40, debounce := 1 } }
    3 0 true

theorem test_hyp_piston :
    let s := { playing with portA := setting }
    SetReadsMade (portAt s .A) ∧ ¬ SetReadsMade (portAt playing .A) ∧ heldScope playing .B 9 = []
      ∧ (3, 16) ∈ [((3, 16) : Nat × Nat)] ∧ [((3, 16) : Nat × Nat)].length < 32
      ∧ (stopAt playing 0).kind = .unused := by
  refine ⟨⟨3, 0, by decide +kernel⟩, ?_, by decide +kernel, by decide, by decide, by decide +kernel⟩
  rintro ⟨i, b, _, _, _, _, h⟩
  rw [show imageAt (portAt playing .A) i = 0 from look_replicate_self 64 i _] at h
  simp at h

/-- While SET is made piston 9 captures, and a cancel still cancels (R101, R109). -/
theorem test_piston_captures :
    let s := { playing with portA := setting, drawn := BitVec.twoPow 256 44, dirty := [(0, 0)] }
    (fun t => (members (combinationAt t 3 9), t.dirty, members t.drawn)) (pistonMake s .A 9)
        = ([44], [(0, 0), (3, 9)], [44])
      ∧ members (pistonMake s .A 41).drawn = [] := by decide +kernel

theorem test_hyp_fault_set :
    let s := { playing with faults := [1097, 3839] }
    PortFree s ∧ s.mode ≠ .quiescing ∧ 768 ≤ 768 % 1024 ∧ 3839 % 1024 < 768 ∧ 3839 ∈ s.faults
      ∧ 3838 ∉ s.faults ∧ s.faults.Pairwise (fun a b => a < b) ∧ (∀ m ∈ s.faults, m < 3840)
      ∧ (∀ k ∈ s.faults, 1098 ≤ k → 3839 ≤ k) := by decide +kernel

/-! #### The console links -/

/-- The relay in RUN with port A receiving, one slot taken or none. -/
def receiving (c : ConsolePort) (taken : List Word) : State :=
  { playing with portA := { c with receiver := .receiving taken, framing := .reckoned } }

/-- Port A drives stop 44 ON, with a return map of its coils and the indicators. -/
def returning : State :=
  recalling { playing with
    portA := { console with
      framing := .reckoned
      returnMap := put (put console.returnMap 0 { kind := .tabDriveOn, firstStop := 40 }) 1
        { kind := .indicator, firstStop := 0 } } } (BitVec.twoPow 256 44) 0 none

theorem setReadsMade_returning : ¬ SetReadsMade (portAt returning .A) := by
  rintro ⟨i, b, _, _, _, _, h⟩
  rw [show imageAt (portAt returning .A) i = 0 from look_replicate_self 64 i _] at h
  simp at h

set_option synthInstance.maxSize 1000 in
/-- The return frame of the coil of stop 44, and of level 3 with the Accompaniment held. -/
theorem test_hyp_start_mark :
    let ws : List Word := [0x0010, 0x0043]
    ws.length = (portAt returning .A).entry.returnSlots ∧ (portAt returning .A).receiver = .waiting
      ∧ (portAt returning .A).framing = .reckoned ∧ (portAt playing .A).framing = .unset
      ∧ ∀ i b, i < (portAt returning .A).entry.returnSlots → b < 16 →
        let e := returnAt (portAt returning .A) i
        ((ws.getD i 0).getLsbD b = true ↔
          (e.kind = .tabDriveOn ∧ (portAt returning .A).recallSlot.driveOn.getLsbD (e.firstStop + b) = true)
          ∨ (e.kind = .tabDriveOff ∧ (portAt returning .A).recallSlot.driveOff.getLsbD (e.firstStop + b) = true)
          ∨ (e.kind = .indicator
            ∧ ((b < 4 ∧ (portAt returning .A).level.testBit b = true) ∨ (b = 4 ∧ SetReadsMade (portAt returning .A))
              ∨ (5 ≤ b ∧ b ≤ 10 ∧ granting returning (b - 5) = some .A)))) := by
  refine ⟨by decide +kernel, by decide +kernel, by decide +kernel, by decide +kernel, fun i b hi hb => ?_⟩
  rw [eq_false setReadsMade_returning]
  extract_lets e
  subst e
  simp only [and_false, false_or]
  revert b
  revert i
  decide +kernel

theorem test_hyp_mark_cases :
    (portAt State.reset .A).receiver = .idle ∧ (portAt returning .A).receiver ≠ .idle
      ∧ (portAt returning .A).framing = .reckoned ∧ (15 : Fin 16) ≠ 0
      ∧ (portAt (receiving console [7]) .A).receiver = .receiving [7]
      ∧ (portAt (receiving console [7]) .A).framing = .reckoned := by decide +kernel

/-- A mark held until the end of the slot it fell in, and the two commands that say so. -/
theorem test_hyp_held_mark :
    let s := setPort returning .A { portAt returning .A with framing := .held }
    (portAt s .A).framing = .held
      ∧ ∃ u v, exec (.scanFrame .A [7]) (setPort s .A { portAt s .A with framing := .reckoned }) = .next u
        ∧ exec (.startMark { port := .A, bit := 0 }) u = .next v :=
  ⟨by decide +kernel, _, _, rfl, rfl⟩

/-- A mark inside a slot is taken at the end of that slot (R176). -/
theorem test_mark_inside_slot :
    seen (fun t => ((portAt t .A).receiver, (portAt t .A).framing)) (.startMark { port := .A, bit := 5 }) returning
        = some (.waiting, .held)
      ∧ seen (fun t => (portAt t .A).receiver) (.scanFrame .A [7, 9])
        (setPort returning .A { portAt returning .A with framing := .held }) = some (.receiving [9]) := by
  decide +kernel

/-- A mark that falls inside a slot of a frame abandons it at the end of that slot, which the frame still takes. -/
theorem test_early_mark_inside_slot :
    seen (fun t => ((portAt t .A).receiver, counterAt t (.earlyStarts .A))) (.scanFrame .A [9])
      (setPort (receiving console [7]) .A { portAt (receiving console [7]) .A with framing := .held })
      = some (.waiting, 1) := by decide +kernel

theorem test_hyp_incomplete_and_invalid :
    (portAt (receiving console [7]) .A).receiver = .receiving [7] ∧ (portAt (receiving console [7]) .A).framing ≠ .held
      ∧ ([7] ++ List.replicate 3 (0 : Word)).length ≤ (portAt (receiving console [7]) .A).entry.dataSlots
      ∧ (portAt (receiving console [7]) .A).entry.dataSlots < ([7] ++ List.replicate 4 (0 : Word)).length
      ∧ ([7] ++ List.replicate 4 (0 : Word)).getD 4 0 ≠ checkWord (([7] ++ List.replicate 4 (0 : Word)).take 4) := by
  decide +kernel

/-- Four slots of zeros and their check, the first of them taken by an earlier command. -/
theorem test_hyp_valid_frame :
    let lost (good : Nat) := receiving { console with state := .lost, good := good } [0]
    (portAt (lost 0) .A).receiver = .receiving [0] ∧ (portAt (lost 0) .A).framing ≠ .held
      ∧ [0] ++ [0, 0, 0, 0xFFFF] = List.replicate 4 (0 : Word) ++ [checkWord (List.replicate 4 0)]
      ∧ (List.replicate 4 (0 : Word)).length = (portAt (lost 0) .A).entry.dataSlots
      ∧ (portAt (lost 0) .A).state = .lost ∧ (portAt (lost 0) .A).good + 1 < (portAt (lost 0) .A).entry.recovery
      ∧ (portAt (lost 1) .A).entry.recovery ≤ (portAt (lost 1) .A).good + 1
      ∧ (portAt (receiving { console with state := .seeking } [0]) .A).state = .seeking := by decide +kernel

/-- The port as the frame with key 12 and the tab of stop 44 made brings it ONLINE. -/
def arrived : ConsolePort :=
  { console with image := baselineImage console [0x1000, 0x0010, 0, 0] }

theorem keyReadsMade_arrived (d : Nat) (t : Touch) (k : Nat) :
    KeyReadsMade arrived d t k ↔ 1 = d ∧ Touch.first = t ∧ 12 = k :=
  keyReadsMade_one (c := arrived) (i0 := 0) (b0 := 12)
    (by decide +kernel : ∀ i, i < 4 → ∀ b, b < 16 → (slotAt arrived i).kind = .keys →
      (imageAt arrived i).getLsbD b = true → i = 0 ∧ b = 12) (by decide +kernel) d t k

/-- The one key to play is number 128 * 1 + 2 * 12 + 0. -/
theorem test_hyp_arrival :
    let s := receiving { console with state := .lost, good := 1 } []
    (stopAt s 44).kind ≠ .unused ∧ (stopAt s 44).division ≠ 5 ∧ granting s (stopAt s 44).division = some .A
      ∧ TabMapped (portAt s .A) 44 ∧ (portAt s .A).recallSlot.driveOn.getLsbD 44 = false
      ∧ (portAt s .A).recallSlot.driveOff.getLsbD 44 = false ∧ TabReadsMade arrived 44 ∧ granting s 2 ≠ some .A
      ∧ [152].Pairwise (· < ·)
      ∧ ∀ x, x ∈ [152] ↔ granting s (x / 128) = some .A ∧ x % 128 / 2 < (if x / 128 = 0 ∨ x / 128 = 5 then 32 else 61)
        ∧ KeyReadsMade arrived (x / 128) (if x % 2 = 0 then .first else .second) (x % 128 / 2) := by
  refine ⟨by decide +kernel, by decide +kernel, by decide +kernel, ⟨1, 4, by decide +kernel⟩, by decide +kernel,
    by decide +kernel, ⟨1, 4, by decide +kernel⟩, by decide +kernel, by decide, fun x => ?_⟩
  rw [keyReadsMade_arrived]
  constructor
  · intro h
    obtain rfl := List.mem_singleton.mp h
    decide +kernel
  · rintro ⟨_, _, hd, ht, hk⟩
    have hx := even_of_first ht
    exact List.mem_singleton.mpr (by omega)

/-- At the recovery count the tab of stop 44 is taken and key 12 then sounds it (R95, R137). -/
theorem test_arrival_plays :
    let data : List Word := [0x1000, 0x0010, 0, 0]
    seen (fun t => (members t.drawn, (recordAt t 0).map Record.pipe, look t.details 9 .none))
      (.scanFrame .A (data ++ [checkWord data])) (receiving { console with state := .lost, good := 1 } [])
      = some ([44], some 36, .port .A) := by decide +kernel

theorem test_hyp_online_frame :
    let s := { receiving console [0] with pending := [.watchdogExpiry .A, .fetch 0] }
    (portAt s .A).receiver = .receiving [0] ∧ (portAt s .A).framing ≠ .held ∧ (portAt s .A).state = .online
      ∧ [0] ++ [0, 0, 0, 0xFFFF] = List.replicate 4 (0 : Word) ++ [checkWord (List.replicate 4 0)]
      ∧ (List.replicate 4 (0 : Word)).length = (portAt s .A).entry.dataSlots
      ∧ s.pending = .watchdogExpiry .A :: [.fetch 0] ∧ (exprAt s 0).enabled = false
      ∧ (∀ i b, mapped (portAt s .A) i b = true →
          ((List.replicate 4 (0 : Word)).getD i 0).getLsbD b = (imageAt (portAt s .A) i).getLsbD b) := by
  refine ⟨by decide +kernel, by decide +kernel, by decide +kernel, by decide, by decide +kernel, rfl, by decide +kernel,
    fun i b _ => ?_⟩
  rw [show imageAt (portAt { receiving console [0] with pending := [.watchdogExpiry .A, .fetch 0] } .A) i = 0 from
    look_replicate_self 64 i _, List.getD_eq_getElem?_getD, List.getElem?_replicate]
  split <;> rfl

/-- A watchdog expiry that falls together with a frame: the frame first, the port stays ONLINE; the expiry first, it is
LOST (R140). -/
theorem test_expiry_with_a_frame :
    let s := receiving console [0]
    let both := (nextOf (exec (.scanFrame .A [0, 0, 0, 0xFFFF]) { s with pending := [.watchdogExpiry .A] })).bind
      fun t => nextOf (step t)
    (both.map fun t => ((portAt t .A).state, (portAt t .A).overtaken)) = some (.online, false)
      ∧ seen (fun t => (portAt t .A).state) (.watchdogExpiry .A) s = some .lost := by decide +kernel

theorem test_hyp_debounce :
    let twice := { playing with portA := withDebounce console 0 15 1 }
    mapped (portAt playing .A) 0 15 = true ∧ (imageAt (portAt playing .A) 0).getLsbD 15 = false
      ∧ (([0x8000] : List Word).getD 0 0).getLsbD 15 = true ∧ (([0] : List Word).getD 0 0).getLsbD 15 = false
      ∧ debounceAt (portAt playing .A) 0 15 + 1 < (slotAt (portAt playing .A) 0).debounce
      ∧ (slotAt (portAt twice .A) 0).debounce ≤ debounceAt (portAt twice .A) 0 15 + 1 := by decide +kernel

/-- A change at the count, of a key, a tab and a piston, made and broken; and a contact that is not mapped. -/
theorem test_hyp_handed_on :
    let made := { playing with portA := withContact (withContact (withContact console 0 12 true) 1 4 true) 2 9 true }
    (slotAt console 0).kind = .keys ∧ (slotAt console 1).kind = .tabs ∧ (slotAt console 2).kind = .pistons
      ∧ mapped console 1 4 = true ∧ mapped console 2 9 = true ∧ mapped console 3 0 = false
      ∧ (slotAt console 1).debounce ≤ debounceAt console 1 4 + 1 ∧ (slotAt console 2).debounce ≤ debounceAt console 2 9 + 1
      ∧ (imageAt console 2).getLsbD 9 = false ∧ (imageAt (portAt made .A) 0).getLsbD 12 = true
      ∧ (imageAt (portAt made .A) 1).getLsbD 4 = true ∧ (imageAt (portAt made .A) 2).getLsbD 9 = true := by
  decide +kernel

/-- A frame of an ONLINE port whose tab contact changed draws its stop (R142, R85). -/
theorem test_frame_draws_stop :
    let data : List Word := [0, 0x0010, 0, 0]
    seen (fun t => members t.drawn) (.scanFrame .A (data ++ [checkWord data])) (receiving console []) = some [44] := by
  decide +kernel

/-- With stop 44 drawn it is the one stop that a key of the Accompaniment plays. -/
theorem test_hyp_keys :
    let s := setDrawn playing (BitVec.twoPow 256 44)
    granting s 1 = some .A ∧ granting s 1 ≠ some .B ∧ [44].Pairwise (· < ·)
      ∧ ∀ n, n ∈ [44] ↔ n < 256 ∧ ((stopAt s n).kind = .voice ∨ (stopAt s n).kind = .fixed)
        ∧ (stopAt s n).division = 1 ∧ (stopAt s n).touch = .first ∧ effective s n = true := by
  refine ⟨by decide +kernel, by decide +kernel, by decide, fun n => ⟨fun h => ?_, fun ⟨h, _, _, _, he⟩ => ?_⟩⟩
  · obtain rfl := List.mem_singleton.mp h
    decide +kernel
  · exact List.mem_singleton.mpr
      ((by decide +kernel : ∀ n, n < 256 → effective (setDrawn playing (BitVec.twoPow 256 44)) n = true → n = 44) n h he)

theorem test_hyp_watchdog :
    (portAt playing .A).state = .online ∧ (portAt playing .A).watchdog = some 7
      ∧ (portAt playing .A).overtaken = false := by decide +kernel

/-- A recall in progress that drives stops 44 and 45 ON and stop 90, which has no tab, OFF; 44 and 45 are drawn and
their tabs open. -/
def driving (c : ConsolePort) (pending : Option Nat) : State :=
  recalling { playing with portA := c, drawn := BitVec.twoPow 256 44 ||| BitVec.twoPow 256 45 }
    (BitVec.twoPow 256 44 ||| BitVec.twoPow 256 45) (BitVec.twoPow 256 90) pending

theorem tabMapped_driving (pending : Option Nat) (n : Nat) :
    TabMapped (portAt (driving console pending) .A) n ↔ 40 ≤ n ∧ n < 56 := by
  constructor
  · rintro ⟨i, b, hi, hb, hk, hn⟩
    obtain rfl : i = 1 :=
      (by decide +kernel : ∀ i, i < 4 → (slotAt console i).kind = .tabs → i = 1) i hi hk
    rw [show (slotAt (portAt (driving console pending) .A) 1).first = 40 from rfl] at hn
    omega
  · rintro ⟨h1, h2⟩
    exact ⟨1, n - 40, show 1 < 4 by decide, by omega, rfl, show 40 + (n - 40) = n by omega⟩

theorem tabReadsMade_driving (pending : Option Nat) (n : Nat) :
    ¬ TabReadsMade (portAt (driving console pending) .A) n := by
  rintro ⟨i, b, _, _, _, _, h⟩
  rw [show imageAt (portAt (driving console pending) .A) i = 0 from look_replicate_self 64 i _] at h
  simp at h

theorem test_hyp_drive (pending : Option Nat) :
    let s := driving console pending
    (portAt s .A).recallSlot.timer = some 7 ∧ [44, 45].Pairwise (· < ·)
      ∧ (portAt s .A).recallSlot.pendingPiston = pending ∧ [44, 45].getLast? = some 45
      ∧ ∀ n, n ∈ [44, 45] ↔ n < 256 ∧ (portAt s .A).state = .online
        ∧ ((portAt s .A).recallSlot.driveOn.getLsbD n = true ∨ (portAt s .A).recallSlot.driveOff.getLsbD n = true)
        ∧ TabMapped (portAt s .A) n ∧ ¬ (TabReadsMade (portAt s .A) n ↔ s.drawn.getLsbD n = true) := by
  refine ⟨rfl, by decide, rfl, rfl, fun n => ?_⟩
  rw [tabMapped_driving, eq_false (tabReadsMade_driving pending n)]
  refine ⟨fun h => ?_, fun ⟨h, _, _, _, hd⟩ => ?_⟩
  · rcases List.mem_pair.mp h with rfl | rfl <;>
      exact ⟨by decide, rfl,
        .inl (show (BitVec.twoPow 256 44 ||| BitVec.twoPow 256 45).getLsbD _ = true by decide), by decide,
        fun h => h.mpr (show (BitVec.twoPow 256 44 ||| BitVec.twoPow 256 45).getLsbD _ = true by decide)⟩
  · have hs : (driving console pending).drawn.getLsbD n = true := by
      by_contra hc
      exact hd ⟨False.elim, fun h => absurd h hc⟩
    exact (by decide +kernel :
      ∀ n, n < 256 → (BitVec.twoPow 256 44 ||| BitVec.twoPow 256 45).getLsbD n = true → n ∈ [44, 45]) n h hs

theorem test_hyp_drive_offline (pending : Option Nat) :
    let s := driving { console with state := .lost } pending
    (portAt s .A).recallSlot.timer = some 7 ∧ [].Pairwise (α := Nat) (· < ·) ∧ (portAt s .A).state ≠ .online
      ∧ ∀ n, n ∈ ([] : List Nat) ↔ n < 256 ∧ (portAt s .A).state = .online
        ∧ ((portAt s .A).recallSlot.driveOn.getLsbD n = true ∨ (portAt s .A).recallSlot.driveOff.getLsbD n = true)
        ∧ TabMapped (portAt s .A) n ∧ ¬ (TabReadsMade (portAt s .A) n ↔ s.drawn.getLsbD n = true) := by
  have off : PortState.lost ≠ .online := by decide
  exact ⟨rfl, .nil, off, fun n => ⟨fun h => absurd h List.not_mem_nil, fun ⟨_, h, _⟩ => absurd h off⟩⟩

/-! #### The effective set -/

theorem isCrescendoEntry_playing (e : Nat) : isCrescendoEntry (exprAt playing e) = false := by
  rw [show exprAt playing e = ExprEntry.unset from look_replicate_self 8 e _]
  rfl

theorem oneCrescendo_swelled : OneCrescendoEntry swelled := by
  have zero (e : Nat) (h : isCrescendoEntry (exprAt swelled e) = true) : e = 0 := by
    by_contra hn
    rw [show exprAt swelled e = exprAt playing e from look_put_ne _ _ _ (Ne.symm hn), isCrescendoEntry_playing] at h
    exact absurd h (by decide)
  exact fun e f he hf => (zero e he).trans (zero f hf).symm

/-- The relay in RUN with a drawn TREMULANT stop 200, whose rank's output is on. -/
def trembling (s : State) : State :=
  setTremulant (setDrawn s (BitVec.twoPow 256 200)) 40 true

theorem test_hyp_effective :
    OneCrescendoEntry swelled ∧ swelled.drawn.getLsbD 44 = false ∧ effective swelled 44 = true
      ∧ (exprAt swelled 0).enabled = true ∧ (exprAt swelled 0).target = .crescendo ∧ (exprAt swelled 0).port = some .A
      ∧ granting swelled (stopAt swelled 44).division = some .A ∧ 1 ≤ (runAt swelled 0).stage
      ∧ (look swelled.crescendo ((runAt swelled 0).stage - 1) 0).getLsbD 44 = true ∧ effective swelled 40 = false :=
  ⟨oneCrescendo_swelled, by decide +kernel⟩

theorem test_hyp_tab_event :
    let s := recalling playing (BitVec.twoPow 256 40) 0 none
    let effects := setStop s 255 { StopEntry.unset with division := 5, kind := .fixed }
    (stopAt s 0).kind = .unused ∧ (stopAt effects 255).division = 5 ∧ (stopAt s 44).kind ≠ .unused
      ∧ (stopAt s 44).division ≠ 5 ∧ granting s (stopAt s 44).division = some .A
      ∧ granting s (stopAt s 44).division ≠ some .B ∧ (portAt s .A).recallSlot.driveOn.getLsbD 40 = true
      ∧ (portAt s .A).recallSlot.driveOn.getLsbD 44 = false ∧ (portAt s .A).recallSlot.driveOff.getLsbD 44 = false
      ∧ s.drawn.getLsbD 44 = false ∧ s.drawn.getLsbD 44 ≠ true := by decide +kernel

/-- The relay in RUN with key 12 of the Accompaniment made at port A. -/
def keyed : State :=
  { playing with portA := pressed }

theorem test_hyp_changes :
    (stopAt keyed 0).kind = .unused ∧ (stopAt keyed 200).kind = .tremulant ∧ (stopAt keyed 200).rank < 64
      ∧ (stopAt keyed 44).kind = .voice ∧ granting keyed (stopAt keyed 90).division = none
      ∧ (stopAt keyed 90).kind = .voice ∧ granting keyed (stopAt keyed 44).division = some .A ∧ [12].Pairwise (· < ·)
      ∧ ∀ k, k ∈ [12] ↔ k < (if (stopAt keyed 44).division = 0 ∨ (stopAt keyed 44).division = 5 then 32 else 61)
        ∧ KeyReadsMade (portAt keyed .A) (stopAt keyed 44).division (stopAt keyed 44).touch k := by
  refine ⟨by decide +kernel, by decide +kernel, by decide +kernel, by decide +kernel, by decide +kernel,
    by decide +kernel, by decide +kernel, by decide, fun k => ?_⟩
  rw [show portAt keyed .A = pressed from rfl, keyReadsMade_pressed]
  constructor
  · intro h
    obtain rfl := List.mem_singleton.mp h
    decide +kernel
  · exact fun h => List.mem_singleton.mpr h.2.2.2.symm

/-! #### The sounding records -/

theorem test_hyp_admission :
    let s := sounding { pipe36 with state := .settling, charge := 0, phase := some 0 }
    recordAt s 7 = some { pipe36 with state := .settling, charge := 0, phase := some 0 } ∧ (rankAt s 5).rail < 4
      ∧ (railAt s 1).deferred = [] ∧ (railAt s 1).draw + (rankAt s 5).pull ≤ (railAt s 1).entry.capacity
      ∧ (railAt (setRail s 1 { rail with deferred := [9] }) 1).deferred ≠ []
      ∧ 300 < (railAt (setRail s 1 { rail with draw := 289 }) 1).draw + (rankAt s 5).pull
      ∧ (railAt s 1).entry.low < (railAt s 1).entry.high ∧ (railAt s 1).draw < (railAt s 1).entry.low
      ∧ 240 < (railAt (setRail s 1 { rail with draw := 241 }) 1).draw
      ∧ 120 ≤ (railAt (setRail s 1 { rail with draw := 120 }) 1).draw
      ∧ (railAt (setRail s 1 { rail with draw := 240 }) 1).draw ≤ 240 := by decide +kernel

/-- The organ with pipe 36 WAITING and overdue at the head of rail 1's list. -/
def waiting (draw : Nat) : State :=
  setRail (sounding { pipe36 with state := .waiting, charge := 0, overdue := true }) 1
    { rail with deferred := [7], draw := draw }

theorem test_hyp_pass :
    (railAt (waiting 288) 1).deferred = [7] ∧ (railAt playing 1).deferred = []
      ∧ recordAt (waiting 288) 7 = some { pipe36 with state := .waiting, charge := 0, overdue := true }
      ∧ (rankAt (waiting 288) 5).rail = 1 ∧ (railAt (waiting 288) 1).draw + 12 ≤ 300
      ∧ 300 < (railAt (waiting 289) 1).draw + (rankAt (waiting 289) 5).pull := by decide +kernel

/-- A head that fits is admitted and leaves the list; one that does not stays at the head (R75). -/
theorem test_pass :
    let a := allocatorWork (waiting 288) 1
    let b := allocatorWork (waiting 289) 1
    recordAt a 7 = some { pipe36 with state := .pulling, charge := 12, phase := some 18 }
      ∧ railAt a 1 = { rail with draw := 300, strained := true }
      ∧ recordAt b 7 = recordAt (waiting 289) 7 ∧ (railAt b 1).deferred = [7] := by decide +kernel

/-- The organ with two paused rolls on rail 2, STRAINED. -/
def pausedRolls (draw : Nat) : State :=
  setRail (setRecord (sounding { bar12 with cycle := none, paused := true }) 9
    (some { bar12 with pipe := 14, cycle := none, paused := true })) 2 { rail with draw := draw, strained := true }

/-- The return to NORMAL resumes the paused rolls of the rail, in ascending index (R56, R74). -/
theorem test_resumption :
    let t := allocatorWork (pausedRolls 119) 2
    (railAt (judgeStrain (pausedRolls 119) 2) 2).strained = false
      ∧ (railAt (judgeStrain (pausedRolls 120) 2) 2).strained = true
      ∧ ((recordAt t 7).map fun r => (r.state, r.paused)) = some (.striking, false)
      ∧ ((recordAt t 9).map fun r => (r.state, r.paused)) = some (.striking, false)
      ∧ (railAt t 2).draw = 179 ∧ ((recordAt (allocatorWork (pausedRolls 120) 2) 7).map Record.paused) = some true := by
  decide +kernel

/-- The claim of a key of port A on stop 44. -/
def claimOf (key : Nat) : Claim :=
  { port := .A, division := 1, touch := .first, key := key, stop := 44 }

theorem test_hyp_claim_request :
    let full := { pipe36 with claims := (List.range 12).map claimOf }
    TableSound (sounding full) ∧ recordAt (sounding full) 7 = some full ∧ claimOf 0 ∈ full.claims
      ∧ claimOf 12 ∉ full.claims ∧ full.claims.length = 12 ∧ claimOf 12 ∉ pipe36.claims ∧ pipe36.claims.length < 12 := by
  refine ⟨test_hyp_table_sound _ (by decide), by decide +kernel, by decide, by decide, by decide, by decide, by decide⟩

/-- What a claim that joins a record of pipe 36 leaves of the record: its state, restrike pending and strike count. -/
def afterJoin (r : Record) : Option (RecordState × Bool × Nat) :=
  (recordAt (claimRequest (sounding r) (claimOf 12) 5 36) 7).map fun x => (x.state, x.restrike, x.strikeCount)

/-- A joining claim by kind and state (R31, R34, R35, R37, R51, R57, R61). -/
theorem test_joins :
    afterJoin { pipe36 with kind := .strike, state := .striking } = some (.striking, true, 0)
      ∧ afterJoin { pipe36 with kind := .strike, state := .settling } = some (.settling, true, 0)
      ∧ afterJoin { pipe36 with kind := .reiterate, state := .striking } = some (.striking, true, 0)
      ∧ afterJoin { pipe36 with kind := .reiterate, state := .striking, cycle := some 5 } = some (.striking, false, 0)
      ∧ afterJoin { pipe36 with kind := .strike, state := .struck, charge := 0 } = some (.striking, false, 1)
      ∧ afterJoin { pipe36 with kind := .held, state := .locked, charge := 0 } = some (.locked, false, 0)
      ∧ afterJoin pipe36 = some (.speaking, false, 0) := by decide +kernel

/-- The organ in RUN with every place of the sounding table in use, by pipes of ranks 0 to 4. -/
def crowded : State :=
  { playing with table := Vector.ofFn fun i => some { pipe36 with rank := i.val / 97, pipe := i.val % 97 } }

theorem recordAt_crowded (i : Nat) :
    recordAt crowded i = if i < 448 then some { pipe36 with rank := i / 97, pipe := i % 97 } else none := by
  simp only [recordAt, crowded]
  by_cases h : i < 448
  · rw [look_lt _ _ h, if_pos h]
    simp
  · rw [look_beyond _ _ (by omega), if_neg h]

theorem test_hyp_claim_refused :
    TableSound crowded ∧ (rankAt crowded 5).kind = .pipe ∧ (∀ i, i < 448 → recordAt crowded i ≠ none)
      ∧ ∀ i r, recordAt crowded i = some r → ¬ (r.rank = 5 ∧ r.pipe = 0) := by
  refine ⟨⟨?_, ?_⟩, by decide +kernel, ?_, ?_⟩
  · intro i j x y hx hy h1 h2
    rw [recordAt_crowded] at hx hy
    split at hx
    · split at hy
      · obtain rfl := Option.some.inj hx
        obtain rfl := Option.some.inj hy
        simp only at h1 h2
        omega
      · simp at hy
    · simp at hx
  · intro i x hx
    rw [recordAt_crowded] at hx
    split at hx
    · obtain rfl := Option.some.inj hx
      exact (by decide : pipe36.claims.Nodup ∧ pipe36.claims.length ≤ 12)
    · simp at hx
  · intro i h
    rw [recordAt_crowded, if_pos h]
    simp
  · intro i x hx
    rw [recordAt_crowded] at hx
    split at hx
    · obtain rfl := Option.some.inj hx
      simp only
      omega
    · simp at hx

theorem test_hyp_claim_creates :
    TableSound (sounding pipe36) ∧ (rankAt (sounding pipe36) 5).kind = .pipe ∧ recordAt (sounding pipe36) 0 = none
      ∧ (∀ j, j < 0 → recordAt (sounding pipe36) j ≠ none)
      ∧ ∀ i r, recordAt (sounding pipe36) i = some r → ¬ (r.rank = 5 ∧ r.pipe = 84) := by
  refine ⟨test_hyp_table_sound _ (by decide), by decide +kernel, by decide +kernel, fun j h => absurd h (by omega), ?_⟩
  intro i r h
  rw [recordAt_sounding] at h
  split at h
  · obtain rfl := Option.some.inj h
    decide
  · simp at h

theorem deferred_sounding (r : Record) (k : Nat) : (railAt (sounding r) k).deferred = [] := by
  show (look (Vector.replicate 4 rail) k Rail.unset).deferred = []
  rw [look_replicate]
  split <;> rfl

/-- A table of one record that is not WAITING has empty lists. -/
theorem deferredSound_sounding (r : Record) (h : r.state ≠ .waiting) : DeferredSound (sounding r) := by
  intro k _
  rw [deferred_sounding]
  refine ⟨.nil, fun i => ⟨fun hi => absurd hi List.not_mem_nil, fun ⟨x, hx, hw, _⟩ => ?_⟩⟩
  rw [recordAt_sounding] at hx
  split at hx
  · obtain rfl := Option.some.inj hx
    exact absurd hw h
  · simp at hx

theorem pausedSound_sounding (r : Record) (h : r.paused = true → r.kind = .reiterate ∧ r.state = .resting) :
    PausedSound (sounding r) := by
  intro i x hx hp
  rw [recordAt_sounding] at hx
  split at hx
  · obtain rfl := Option.some.inj hx
    exact h hp
  · simp at hx

theorem test_hyp_wait_and_pull :
    recordAt (sounding (dueIn pipe36 .waiting)) 7 = some (dueIn pipe36 .waiting)
      ∧ recordAt (sounding (dueIn pipe36 .pulling)) 7 = some (dueIn pipe36 .pulling)
      ∧ (dueIn pipe36 .waiting).phase = some 0 ∧ DeferredSound (sounding (dueIn pipe36 .pulling))
      ∧ PausedSound (sounding (dueIn pipe36 .pulling)) := by
  refine ⟨by decide +kernel, by decide +kernel, rfl, deferredSound_sounding _ (by decide),
    pausedSound_sounding _ fun h => absurd h (by decide)⟩

/-- The relay in QUIESCING with one record, and every link disabled. -/
def fading (r : Record) : State :=
  quiescing { sounding r with links := State.reset.links }

theorem recordAt_fading (r : Record) (i : Nat) : recordAt (fading r) i = if i = 7 then some r else none :=
  recordAt_sounding r i

theorem test_hyp_settle :
    let r := { dueIn pipe36 .settling with claims := [] }
    recordAt (sounding r) 7 = some r ∧ (sounding r).mode ≠ .quiescing ∧ recordAt (fading r) 7 = some r
      ∧ (fading r).mode = .quiescing ∧ (∀ j, j ≠ 7 → recordAt (fading r) j = none)
      ∧ (∀ l, l < 4 → (linkAt (fading r) l).entry.enabled = false ∨ (linkAt (fading r) l).served = true)
      ∧ ¬ ((linkAt (quiescing (sounding r)) 1).entry.enabled = false ∨ (linkAt (quiescing (sounding r)) 1).served = true)
      ∧ r.phase = some 0 ∧ (dueIn pipe36 .settling).claims ≠ [] ∧ (dueIn pipe36 .settling).kind ≠ .strike
      ∧ { dueIn pipe36 .settling with kind := .strike }.restrike = false
      ∧ { dueIn pipe36 .settling with kind := .strike, restrike := true }.restrike = true := by
  refine ⟨by decide +kernel, by decide +kernel, by decide +kernel, rfl, fun j h => ?_, by decide +kernel,
    by decide +kernel, rfl, by decide, by decide, rfl, rfl⟩
  rw [recordAt_fading, if_neg h]

/-- The last settle expiry of a quiesce completes it (R46, R166). -/
theorem test_settle_completes_quiesce :
    seen (fun t => (t.mode, look t.details 11 .none, t.pendingCauses.getLsbD 11)) (.settleTimerExpiry 7)
      (fading { dueIn pipe36 .settling with claims := [], charge := 0 }) = some (.config, .none, true) := by
  decide +kernel

theorem test_hyp_strike_expiry :
    let r := dueIn bar12 .striking
    let quick := { sounding r with ranks := put playing.ranks 20 { xylophone with minOff := 0 } }
    recordAt (sounding r) 7 = some r ∧ DeferredSound (sounding r) ∧ PausedSound (sounding r)
      ∧ r.paused = false ∧ r.cycleHeld = false ∧ (rankAt (sounding r) 20).minOff ≠ 0 ∧ r.kind = .reiterate
      ∧ r.claims ≠ [] ∧ r.restrike = false ∧ { r with claims := [] }.claims = [] ∧ { r with kind := .strike }.kind = .strike
      ∧ { r with restrike := true }.restrike = true ∧ recordAt quick 7 = some r ∧ (rankAt quick 20).minOff = 0
      ∧ { r with cycleHeld := true, cycle := some 0 }.cycleHeld = true := by
  refine ⟨by decide +kernel, deferredSound_sounding _ (by decide), pausedSound_sounding _ fun h => absurd h (by decide),
    rfl, rfl, by decide +kernel, rfl, by decide, rfl, rfl, rfl, rfl, by decide +kernel, by decide +kernel, rfl⟩

/-- What a strike expiry of bar 12 leaves of the record, on rail 2 as it stands. -/
def afterStrike (minOff : Nat) (r : Record) (on : Rail) : Option (Option (RecordState × Bool × Nat)) :=
  seen (fun t => (recordAt t 7).map fun x => (x.state, x.paused, x.strikeCount)) (.strikeTimerExpiry 7)
    { setRail (sounding (dueIn { r with charge := 30 } .striking)) 2 on with
      ranks := put playing.ranks 20 { xylophone with minOff := minOff } }

/-- A rail STRAINED at a draw between its watermarks. -/
def strainedRail : Rail :=
  { rail with draw := 200, strained := true }

/-- Bar 12 with its cycle expiry held. -/
def heldBar : Record :=
  { bar12 with cycle := some 0, cycleHeld := true }

/-- A held cycle expiry on a STRAINED and on a NORMAL rail, and the outcomes of a rank with no minimum off time (R39,
R52, R55). -/
theorem test_strike_outcomes :
    afterStrike 4 heldBar strainedRail = some (some (.resting, true, 0))
      ∧ afterStrike 4 heldBar { rail with draw := 30 } = some (some (.striking, false, 1))
      ∧ afterStrike 4 bar12 strainedRail = some (some (.resting, false, 0))
      ∧ afterStrike 0 { bar12 with kind := .strike } strainedRail = some (some (.struck, false, 0))
      ∧ afterStrike 0 { bar12 with restrike := true } strainedRail = some (some (.striking, false, 1))
      ∧ afterStrike 0 { bar12 with claims := [] } strainedRail = some none := by
  and_intros <;> decide +kernel

/-- The last strike expiry of a quiesce, on a rank with no minimum off time, completes it. -/
theorem test_strike_completes_quiesce :
    let r := { dueIn bar12 .striking with claims := [], charge := 30 }
    let s := { fading r with ranks := put playing.ranks 20 { xylophone with minOff := 0 } }
    recordAt s 7 = some r ∧ (∀ l, l < 4 → (linkAt s l).entry.enabled = false)
      ∧ seen (fun t => (t.mode, (recordAt t 7).isNone)) (.strikeTimerExpiry 7) s = some (.config, true) := by
  decide +kernel

theorem test_hyp_cycle_and_protection :
    let held := { dueIn pipe36 .speaking with kind := .held, phase := none, protection := some 0 }
    recordAt (sounding bar12) 7 = some bar12 ∧ bar12.kind = .reiterate ∧ bar12.state = .resting ∧ bar12.cycle = some 52
      ∧ (railAt (sounding bar12) 2).strained = false
      ∧ (railAt (setRail (sounding bar12) 2 { rail with strained := true }) 2).strained = true
      ∧ (dueIn bar12 .striking).cycle = some 52 ∧ recordAt (sounding (dueIn bar12 .striking)) 7 = some (dueIn bar12 .striking)
      ∧ recordAt (sounding held) 7 = some held ∧ held.state = .speaking ∧ held.protection = some 0
      ∧ DeferredSound (sounding held) ∧ PausedSound (sounding held) := by
  refine ⟨by decide +kernel, rfl, rfl, rfl, by decide +kernel, by decide +kernel, rfl, by decide +kernel,
    by decide +kernel, rfl, rfl, deferredSound_sounding _ (by decide), pausedSound_sounding _ fun h => absurd h (by decide)⟩

/-- A cycle expiry in STRIKING is held for the strike's expiry (R55). -/
theorem test_cycle_expiry_held :
    seen (fun t => (recordAt t 7).map fun r => (r.state, r.cycle, r.cycleHeld)) (.cycleTimerExpiry 7)
      (sounding (dueIn bar12 .striking)) = some (some (.striking, some 0, true)) := by decide +kernel

theorem test_hyp_record_frame :
    (exec (.waitTimerExpiry 7) playing = .next (waitExpiry playing 7))
      ∧ (exec (.settleTimerExpiry 7) playing = .next (settleMode (settleExpiry playing 7))) ∧ playing.mode ≠ .quiescing
      ∧ recordAt playing 7 = none :=
  ⟨rfl, rfl, by decide +kernel, recordAt_playing 7⟩

/-! #### The chamber links -/

/-- Outlets of each kind on: a pipe, a damper, a tremulant and a shade stage; one muted, and one in the fault set. -/
theorem test_hyp_image :
    let s := setRun { setTremulant (sounding pipe36) 40 true with
      expression := put playing.expression 0 shoe } 0 { ExprRun.clear with stage := 1 }
    members (outputImage (setLink s 1 { chamberLink .onDemand with
      entry := { (chamberLink .onDemand).entry with slots := 48 } }) 1) = [73, 176, 480]
      ∧ members (outputImage s 1) = [73, 176]
      ∧ members (outputImage { s with faults := [1097] } 1) = [176]
      ∧ members (outputImage { s with mutes := put s.mutes 0 { base := 1200, mask := 0, enabled := true } } 1) = [73]
      ∧ members (outputImage (setLink (sounding bar12) 2
        { chamberLink .onDemand with entry := { (chamberLink .onDemand).entry with slots := 48 } }) 2) = [323] := by
  decide +kernel

theorem test_hyp_frames :
    let periodic := setLink playing 1 { chamberLink .periodic with period := some 0 }
    let kept := setLink playing 1 { chamberLink .onDemand with keepAlive := some 0 }
    (linkAt playing 1).state ≠ .idle ∧ (linkAt playing 1).flight = .free
      ∧ (linkAt playing 1).served = false ∧ (linkAt periodic 1).entry.mode = .periodic
      ∧ (linkAt periodic 1).period = some 0 ∧ (linkAt kept 1).keepAlive = some 0
      ∧ (linkAt kept 1).entry.mode = .onDemand ∧ outputImage (sounding pipe36) 1 ≠ (linkAt (sounding pipe36) 1).lastSent
      ∧ outputImage playing 1 = (linkAt playing 1).lastSent
      ∧ (linkAt (setLink playing 1 { chamberLink .periodic with period := some 0, flight := .sending }) 1).flight = .sending
      ∧ (linkAt playing 1).flight ≠ .sending := by
  decide +kernel

/-- A frame begun in QUIESCING with the table empty is one that serves the quiesce (R148). -/
theorem test_frame_serves_quiesce :
    seen (fun t => ((linkAt t 1).flight, (linkAt t 1).serving)) (.keepAliveExpiry 1)
      (quiescing (setLink playing 1 { chamberLink .onDemand with keepAlive := some 0 })) = some (.sending, true) := by
  decide +kernel

theorem test_hyp_reply :
    let s := setLink playing 1 { chamberLink .onDemand with flight := .reply, miss := 2 }
    let good : List Word := List.replicate 12 0 ++ [checkWord (List.replicate 12 0)]
    s.mode = .run ∧ (linkAt s 1).flight = .reply ∧ (linkAt s 1).state ≠ .idle
      ∧ ([] : List Word).length < (linkAt s 1).entry.slots + 1
      ∧ (List.replicate 13 (0 : Word)).getD 12 0 ≠ checkWord ((List.replicate 13 (0 : Word)).take 12)
      ∧ (linkAt s 1).state = .up ∧ (linkAt s 1).entry.downThreshold ≤ min 15 ((linkAt s 1).miss + 1)
      ∧ min 15 (1 + 1) < (linkAt s 1).entry.downThreshold
      ∧ (linkAt s 1).entry.slots + 1 ≤ good.length ∧ good.getD 12 0 = checkWord (good.take 12) := by decide +kernel

/-- At the close of a reply: a frame that waited, none, a changed image, and the same one. -/
theorem test_hyp_reply_close :
    let waited := setLink playing 1 { chamberLink .periodic with flight := .reply, startWaits := true }
    let changed := setLink (sounding pipe36) 1 { chamberLink .onDemand with flight := .reply }
    (linkAt waited 1).serving = false ∧ (linkAt waited 1).served = false ∧ (linkAt waited 1).entry.mode = .periodic
      ∧ (linkAt waited 1).startWaits = true ∧ (linkAt changed 1).entry.mode = .onDemand
      ∧ seen (fun t => ((linkAt t 1).flight, (linkAt t 1).startWaits)) (.replyPeriodClose 1 []) waited
        = some (.sending, false)
      ∧ seen (fun t => outputImage t 1 != (linkAt changed 1).lastSent) (.replyPeriodClose 1 []) changed = some true
      ∧ seen (fun t => outputImage t 1 == 0) (.replyPeriodClose 1 [])
        (setLink playing 1 { chamberLink .onDemand with flight := .reply }) = some true := by decide +kernel

/-- In QUIESCING, the reply of a frame that does not serve; and the highest outlet a reply adds to the fault set. -/
theorem test_hyp_reply_quiescing :
    let s := quiescing (setLink playing 1 { chamberLink .onDemand with flight := .reply })
    let words : List Word := [0, 0, 0, 0, 0x0200, 0, 0, 0, 0, 0, 0, 0]
    s.mode = .quiescing ∧ (linkAt s 1).flight = .reply ∧ (linkAt s 1).state ≠ .idle ∧ (linkAt s 1).entry.enabled = true
      ∧ (linkAt s 1).serving = false ∧ (linkAt s 1).served = false ∧ (words.getD 4 0).getLsbD 9 = true
      ∧ 1097 = 1 * 1024 + 4 * 16 + 9 ∧ 1097 ∉ s.faults
      ∧ ∀ i, i < 12 → ∀ b, b < 16 → (words.getD i 0).getLsbD b = true → 1 * 1024 + i * 16 + b ≤ 1097 := by decide +kernel

theorem test_hyp_last_serving :
    let s := quiescing (setLink playing 1 { chamberLink .onDemand with flight := .reply, serving := true })
    let two := setLink s 3 (chamberLink .periodic)
    s.mode = .quiescing ∧ tableEmpty s = true ∧ (linkAt s 1).flight = .reply ∧ (linkAt s 1).serving = true
      ∧ (∀ m, m < 4 → m ≠ 1 → (linkAt s m).entry.enabled = false ∨ (linkAt s m).served = true)
      ∧ (linkAt two 3).entry.enabled = true ∧ (linkAt two 3).served = false := by decide +kernel

/-! #### The units by themselves -/

theorem test_hyp_resolver :
    let fixed := setStop organ 120
      { StopEntry.unset with division := 1, kind := .fixed, rank := 5, pipe := 84, windowHigh := 60 }
    (stopAt organ 0).kind = .unused ∧ (stopAt organ 200).kind = .tremulant ∧ (stopAt organ 40).division ≠ 2
      ∧ (stopAt organ 40).windowHigh < 61 ∧ (stopAt organ 40).division = 1 ∧ (stopAt organ 40).windowLow ≤ 60
      ∧ (rankAt organ (stopAt organ 40).rank).kind = .pipe ∧ (stopAt fixed 120).kind = .fixed
      ∧ (stopAt fixed 120).pipe < (rankAt fixed 5).count ∧ (stopAt organ 40).kind = .voice
      ∧ (stopAt organ 40).breakMode = .silent ∧ (stopAt organ 90).breakMode = .fold
      ∧ (36 + 0 + (stopAt organ 40).offset : Int) = (rankAt organ 5).low + (0 : Nat)
      ∧ ((rankAt organ 5).low : Int) + (rankAt organ 5).count ≤ 36 + 60 + (stopAt organ 90).offset
      ∧ 12 ≤ (rankAt organ 5).count := by decide +kernel

theorem test_hyp_stages :
    shoe.low < shoe.high ∧ 200 ≤ shoe.low ∧ shoe.high ≤ 3400 ∧ shoe.low < 201 ∧ 3399 < shoe.high
      ∧ stageOf shoe 1400 = 3 ∧ 2 < stageOf shoe 1400 ∧ stageOf shoe 1350 < 3 ∧ { shoe with hysteresis := 0 }.hysteresis = 0 := by
  decide

theorem test_hyp_fault_check :
    let run (faulted : Bool) (n : Nat) : ExprRun := { ExprRun.clear with faulted := faulted, runCount := n }
    1 ≤ shoe.faultCount ∧ (run false 2).runCount < shoe.faultCount ∧ shoe.faultDetect = true
      ∧ { shoe with faultDetect := false }.faultDetect = false ∧ (run false 2).runCount + 1 = shoe.faultCount
      ∧ (run true 1).runCount + 1 < shoe.faultCount ∧ (run true 1).faulted = true ∧ (run false 1).faulted = false
      ∧ 1520 ≠ 0 ∧ 1520 ≠ 4095 ∧ (run false 0).runCount = 0 ∧ [0, 4095, 0].length = shoe.faultCount
      ∧ (∀ raw ∈ [0, 4095, 0], raw = 0 ∨ raw = 4095) ∧ ∀ raw ∈ [1, 4094, 2000], raw ≠ 0 ∧ raw ≠ 4095 := by decide

/-- An entry worked: its shoe found faulted, its stage held, its stage as it was, and a new stage of either target. -/
theorem test_hyp_work_entry :
    let run : ExprRun := { ExprRun.clear with runCount := 2 }
    (faultCheck shoe { run with lastValue := 0 } 0).2.2 = true
      ∧ (faultCheck shoe { run with faulted := true, lastValue := 1520 } 1520).2 = (false, false)
      ∧ (faultCheck shoe { run with faulted := true, runCount := 0, lastValue := 1520 } 1520).2 = (true, false)
      ∧ (faultCheck shoe { run with lastValue := 1520 } 1520).2 = (false, false)
      ∧ newStage shoe 2 (corrected shoe 1520) = 2 ∧ newStage shoe 0 (corrected shoe 1520) ≠ 0
      ∧ (exprAt { playing with expression := put playing.expression 7 shoe } 7).target ≠ .crescendo
      ∧ (exprAt swelled 0).enabled = true ∧ (exprAt swelled 0).target = .crescendo ∧ 7 < 8 := by decide +kernel

theorem test_hyp_transactions :
    Instr.wellFormed (.lookup (bs [5, 36])) = true ∧ (encodeTransaction (.lookup (bs [5, 36]))).isSome = true
      ∧ Instr.wellFormed (.unknownRequest 0x99 []) = true ∧ (encodeTransaction (.unknownRequest 0x99 [])).isSome = true := by
  decide

/-! #### The invariants -/

/-- A state of a run with every invariant: a pipe WAITING at the head of its rail's list, a drawn TREMULANT stop with
its rank's output on, a queue, a fault and a dirty list. -/
def busy : State :=
  { setRail (trembling (sounding { dueIn pipe36 .waiting with charge := 0 })) 1 { rail with deferred := [7] } with
    pending := [.fetch 0], faults := [1097], dirty := [(3, 16)] }

theorem recordAt_busy (i : Nat) :
    recordAt busy i = if i = 7 then some { dueIn pipe36 .waiting with charge := 0 } else none :=
  recordAt_sounding _ i

theorem rankAt_busy_beyond (q : Nat) (h : 64 ≤ q) : rankAt busy q = RankEntry.unset :=
  look_beyond _ _ h

theorem test_hyp_registration_sound : RegistrationSound busy := by
  refine ⟨fun e f he _ => ?_, fun _ r => ?_⟩
  · rw [show exprAt busy e = exprAt playing e from rfl, isCrescendoEntry_playing] at he
    exact absurd he (by decide)
  · constructor
    · intro h
      rw [show busy.tremulants = BitVec.twoPow 64 40 from by decide +kernel, BitVec.getLsbD_twoPow] at h
      obtain rfl : 40 = r := by simpa using h
      exact ⟨by decide +kernel, 200, by decide +kernel⟩
    · rintro ⟨_, n, hn, hk, rfl, _⟩
      exact (by decide +kernel : ∀ n, n < 256 → (stopAt busy n).kind = .tremulant →
        busy.tremulants.getLsbD (stopAt busy n).rank = true) n hn hk

theorem deferredSound_busy : DeferredSound busy := by
  intro k hk
  refine ⟨(by decide +kernel : ∀ k, k < 4 → (railAt busy k).deferred.Nodup) k hk, fun i => ⟨fun h => ?_, ?_⟩⟩
  · have hi := (by decide +kernel : ∀ k, k < 4 → ∀ i ∈ (railAt busy k).deferred, i = 7 ∧ k = 1) k hk i h
    obtain ⟨rfl, rfl⟩ := hi
    exact ⟨_, (recordAt_busy 7).trans (if_pos rfl), rfl, by decide +kernel⟩
  · rintro ⟨r, hr, _, rfl⟩
    by_cases h : i = 7
    · rw [recordAt_busy, if_pos h] at hr
      obtain rfl := Option.some.inj hr
      obtain rfl := h
      decide +kernel
    · simp [recordAt_busy, h] at hr

theorem pausedSound_busy : PausedSound busy := by
  intro i r h hp
  rw [recordAt_busy] at h
  split at h
  · obtain rfl := Option.some.inj h
    exact absurd hp (by decide)
  · simp at h

/-- A release of all from the busy state, and from one with a pipe SPEAKING. -/
theorem test_hyp_released :
    DeferredSound busy ∧ PausedSound busy ∧ ReleasedBy (hits .all) busy (releaseRequest busy .all)
      ∧ losesLast (hits .all) 7 { dueIn pipe36 .waiting with charge := 0 } = true
      ∧ ReleasedBy (hits (.stop 3)) busy (releaseRequest busy (.stop 3))
      ∧ losesLast (hits (.stop 3)) 7 { dueIn pipe36 .waiting with charge := 0 } = false
      ∧ DeferredSound (sounding pipe36) ∧ PausedSound (sounding pipe36)
      ∧ losesLast (hits (.stop 3)) 7 pipe36 = false ∧ pipe36.state ≠ .waiting ∧ pipe36.paused = false
      ∧ findRecord busy 5 36 = some 7 :=
  ⟨deferredSound_busy, pausedSound_busy, releasedBy_releaseRequest _ _, by decide, releasedBy_releaseRequest _ _,
    by decide, deferredSound_sounding _ (by decide), pausedSound_sounding _ fun h => absurd h (by decide), by decide,
    by decide, rfl, by decide +kernel⟩

/-- What SILENCE leaves of a record of pipe 36 or bar 12. -/
def silenced (r : Record) : Option (Option Record) :=
  seen (fun t => recordAt t 7) (.silence [byte r.rank, byte r.pipe]) (sounding r)

/-- A last release by the record's state (R33, R36, R37, R53, R57, R61). -/
theorem test_silence_by_state :
    let settled := { pipe36 with claims := [], state := .settling, charge := 0, phase := some 6 }
    silenced pipe36 = some (some settled)
      ∧ silenced { pipe36 with state := .pulling, charge := 12, phase := some 5 } = some (some settled)
      ∧ silenced { pipe36 with kind := .held, state := .locked, charge := 0 } = some (some { settled with kind := .held })
      ∧ silenced { bar12 with cycle := none, paused := true }
        = some (some { bar12 with claims := [], state := .settling, phase := some 4, cycle := none })
      ∧ silenced { bar12 with state := .striking, charge := 30, phase := some 3 }
        = some (some { bar12 with claims := [], state := .striking, charge := 30, phase := some 3, cycle := none })
      ∧ silenced { pipe36 with state := .settling, charge := 0, phase := some 2 }
        = some (some { settled with phase := some 2 })
      ∧ silenced { pipe36 with kind := .strike, state := .struck, charge := 0 } = some none
      ∧ silenced { pipe36 with state := .waiting, charge := 0 } = some none := by decide +kernel

/-- A record freed from WAITING leaves the list, and a rank with minimum off time 0 frees its record at once (R33,
R39). -/
theorem test_silence_frees :
    seen (fun t => (recordAt t 7, (railAt t 1).deferred)) (.silence (bs [5, 36])) busy = some (none, [])
      ∧ seen (fun t => recordAt t 7) (.silence (bs [5, 36]))
        { sounding pipe36 with ranks := put playing.ranks 5 { tibia with minOff := 0 } } = some none := by
  decide +kernel

theorem test_hyp_supply_sound : SupplySound busy := by
  refine ⟨deferredSound_busy, fun i r h hp => ?_, (by decide +kernel :
    ∀ k, k < 4 → (railAt busy k).draw ≤ (railAt busy k).entry.capacity), fun q hq => ?_, fun i r h => ?_⟩
  · exact pausedSound_busy i r h hp
  · by_cases hl : q < 64
    · exact (by decide +kernel :
        ∀ q, q < 64 → usesHold (rankAt busy q).kind = true → holdCharge (rankAt busy q) ≤ (rankAt busy q).pull) q hl hq
    · rw [rankAt_busy_beyond q (Nat.le_of_not_lt hl)] at hq
      exact absurd hq (by decide)
  · rw [recordAt_busy] at h
    split at h
    · obtain rfl := Option.some.inj h
      exact ⟨by decide +kernel, fun hp => absurd hp (by decide)⟩
    · simp at h

theorem test_hyp_invariants :
    TableSound busy ∧ ModeSound busy ∧ DrawSound busy ∧ FaultsSound busy ∧ DirtySound busy ∧ CountsBounded busy
      ∧ ∃ t, step busy = .next t := by
  refine ⟨test_hyp_table_sound { dueIn pipe36 .waiting with charge := 0 } (by decide),
    ⟨fun h => absurd rfl h, fun h => ?_⟩, ⟨by decide +kernel, fun r => ?_⟩,
    ⟨by decide +kernel, by decide +kernel, fun l => ?_⟩,
    ⟨by decide +kernel, by decide +kernel⟩, ⟨?_, fun l => ?_, by decide +kernel⟩,
    ⟨_, rfl⟩⟩
  · exact absurd (show Mode.run = Mode.config from h) (by decide)
  · by_cases h : r < 64
    · exact (by decide +kernel : ∀ r, r < 64 → (rankAt busy r).rail < 4) r h
    · rw [rankAt_busy_beyond r (Nat.le_of_not_lt h)]
      decide
  · by_cases h : l < 4
    · exact (by decide +kernel : ∀ l, l < 4 → (linkAt busy l).entry.slots ≤ 48) l h
    · rw [linkAt, look_beyond _ _ (Nat.le_of_not_lt h)]
      decide
  · intro p
    cases p <;> decide +kernel
  · by_cases h : l < 4
    · exact (by decide +kernel : ∀ l, l < 4 → (linkAt busy l).miss ≤ 15) l h
    · rw [linkAt, look_beyond _ _ (Nat.le_of_not_lt h)]
      decide

end Sys2Proof.Tests
end

section
/-! PROOFS. The Resolver answers by window, kind, range and fold (R13 to R17): one rule for the pipe of a note, one for
each fold by octaves, one for each kind of stop, and the statement O49 from these. -/

namespace Sys2Proof.Proofs.Resolver

open Sys2Proof.Machine

/-! ### The pipe of a note (R15, R17) -/

theorem pipeOfNote_eq_some_iff {r : RankEntry} {note : Int} {p : Nat} :
    pipeOfNote r note = some p ↔ p < r.count ∧ note = r.low + p := by
  unfold pipeOfNote
  split
  · rw [Option.some.injEq]
    omega
  · simp only [reduceCtorEq, false_iff]
    omega

theorem pipeOfNote_eq_none_iff {r : RankEntry} {note : Int} :
    pipeOfNote r note = none ↔ note < r.low ∨ (r.low : Int) + r.count ≤ note := by
  unfold pipeOfNote
  split
  · simp only [reduceCtorEq, false_iff]
    omega
  · simp only [true_iff]
    omega

theorem pipeOfNote_isSome {r : RankEntry} {note : Int} (hlow : (r.low : Int) ≤ note)
    (htop : note < (r.low : Int) + r.count) : (pipeOfNote r note).isSome = true := by
  rw [Option.isSome_iff_ne_none, ne_eq, pipeOfNote_eq_none_iff]
  omega

/-! ### Folding by octaves (R16) -/

/-- The least lowering that suffices ends in the twelve notes under the top, and only one note there is whole octaves
away. -/
theorem lowerBelow_eq_iff {top note m : Int} (h : top ≤ note) :
    lowerBelow top note = m ↔ m < top ∧ top ≤ m + 12 ∧ (12 : Int) ∣ note - m := by
  rw [lowerBelow, if_neg (by omega)]
  omega

/-- The least raising that suffices ends in the lowest twelve notes, and only one note there is whole octaves away. -/
theorem raiseTo_eq_iff {low note m : Int} (h : note < low) :
    raiseTo low note = m ↔ low ≤ m ∧ m < low + 12 ∧ (12 : Int) ∣ m - note := by
  rw [raiseTo, if_neg (by omega)]
  omega

theorem pipeOfNote_lowerBelow_eq_some_iff {r : RankEntry} {note : Int} {p : Nat}
    (h : (r.low : Int) + r.count ≤ note) :
    pipeOfNote r (lowerBelow ((r.low : Int) + r.count) note) = some p ↔
      p < r.count ∧ r.count ≤ p + 12 ∧ (12 : Int) ∣ note - (r.low + p) := by
  rw [pipeOfNote_eq_some_iff, lowerBelow_eq_iff h]
  omega

theorem pipeOfNote_raiseTo_eq_some_iff {r : RankEntry} {note : Int} {p : Nat} (h : note < r.low) :
    pipeOfNote r (raiseTo r.low note) = some p ↔ p < r.count ∧ p < 12 ∧ (12 : Int) ∣ r.low + p - note := by
  rw [pipeOfNote_eq_some_iff, raiseTo_eq_iff h]
  omega

/-! ### The pipe of a VOICE stop (R15, R16) -/

theorem noteOf_eq (e : StopEntry) (d k : Nat) : noteOf e d k = (if d = 0 then 24 else 36) + k + e.offset := by
  rw [noteOf, Config.baseNote]
  split <;> rfl

section VoicePipe

variable {e : StopEntry} {r : RankEntry} {d k : Nat}

theorem voicePipe_silent (hb : e.breakMode = .silent) : voicePipe e r d k = pipeOfNote r (noteOf e d k) := by
  simp only [voicePipe, hb]

theorem voicePipe_fold_above (hb : e.breakMode = .fold) (h : (r.low : Int) + r.count ≤ noteOf e d k) :
    voicePipe e r d k = pipeOfNote r (lowerBelow ((r.low : Int) + r.count) (noteOf e d k)) := by
  simp only [voicePipe, hb, if_pos h]

theorem voicePipe_fold_below (hb : e.breakMode = .fold) (h : noteOf e d k < r.low) :
    voicePipe e r d k = pipeOfNote r (raiseTo r.low (noteOf e d k)) := by
  have hnot : ¬ (r.low : Int) + r.count ≤ noteOf e d k := by omega
  simp only [voicePipe, hb, if_neg hnot]

/-- Within the rank's range the break mode does not matter (R15). -/
theorem voicePipe_inRange (hlow : (r.low : Int) ≤ noteOf e d k) (htop : noteOf e d k < (r.low : Int) + r.count) :
    voicePipe e r d k = pipeOfNote r (noteOf e d k) := by
  cases hb : e.breakMode with
  | silent => exact voicePipe_silent hb
  | fold => simp only [voicePipe, hb, if_neg (not_le.mpr htop), raiseTo, if_pos hlow]

/-- A fold always ends in the range of a rank of an octave or more (R16). -/
theorem voicePipe_fold_isSome (hb : e.breakMode = .fold) (hcount : 12 ≤ r.count) :
    (voicePipe e r d k).isSome = true := by
  rcases lt_or_ge (noteOf e d k) r.low with hbelow | hlow
  · obtain ⟨hge, hlt, -⟩ := (raiseTo_eq_iff hbelow).mp rfl
    rw [voicePipe_fold_below hb hbelow]
    exact pipeOfNote_isSome hge (by omega)
  · rcases lt_or_ge (noteOf e d k) (r.low + r.count) with htop | habove
    · rw [voicePipe_inRange hlow htop]
      exact pipeOfNote_isSome hlow htop
    · obtain ⟨hlt, hge, -⟩ := (lowerBelow_eq_iff habove).mp rfl
      rw [voicePipe_fold_above hb habove]
      exact pipeOfNote_isSome (by omega) hlt

end VoicePipe

/-! ### The Resolver's answer by kind (R13, R14) -/

theorem recordKind?_isSome_iff {q : RankKind} :
    (recordKind? q).isSome = true ↔ q = .pipe ∨ q = .strike ∨ q = .reiterate ∨ q = .held := by
  cases q <;> simp [recordKind?]

theorem inWindow_iff {e : StopEntry} {k : Nat} : inWindow e k = true ↔ e.windowLow ≤ k ∧ k ≤ e.windowHigh := by
  simp [inWindow]

/-- The six cases of silence of R14: a rank of no accepted kind is UNUSED or a TREMULANT. -/
theorem resolve_eq_none {s : State} {d k n : Nat}
    (h : (stopAt s n).kind = .unused ∨ (stopAt s n).kind = .tremulant ∨ (stopAt s n).division ≠ d
      ∨ k < (stopAt s n).windowLow ∨ (stopAt s n).windowHigh < k
      ∨ (rankAt s (stopAt s n).rank).kind = .unused ∨ (rankAt s (stopAt s n).rank).kind = .tremulant) :
    resolve s d k n = none := by
  rw [resolve]
  split
  next hgate =>
    obtain ⟨hdiv, hwin, hrank⟩ := hgate
    rw [inWindow_iff] at hwin
    obtain hk | hk | hk | hk | hk | hk | hk := h
    · simp only [hk]
    · simp only [hk]
    · exact absurd hdiv hk
    · omega
    · omega
    · simp [hk, recordKind?] at hrank
    · simp [hk, recordKind?] at hrank
  next => rfl

section Resolve

variable {s : State} {d k n : Nat} (hdiv : (stopAt s n).division = d) (hlow : (stopAt s n).windowLow ≤ k)
  (hhigh : k ≤ (stopAt s n).windowHigh)
  (hrank : (rankAt s (stopAt s n).rank).kind = .pipe ∨ (rankAt s (stopAt s n).rank).kind = .strike
    ∨ (rankAt s (stopAt s n).rank).kind = .reiterate ∨ (rankAt s (stopAt s n).rank).kind = .held)

include hdiv hlow hhigh hrank

theorem resolve_voice (hkind : (stopAt s n).kind = .voice) :
    resolve s d k n = (voicePipe (stopAt s n) (rankAt s (stopAt s n).rank) d k).map
      fun p => ((stopAt s n).rank, p) := by
  rw [resolve, if_pos ⟨hdiv, inWindow_iff.mpr ⟨hlow, hhigh⟩, recordKind?_isSome_iff.mpr hrank⟩]
  simp only [hkind]

theorem resolve_fixed (hkind : (stopAt s n).kind = .fixed) :
    resolve s d k n = (fixedPipe (stopAt s n) (rankAt s (stopAt s n).rank)).map
      fun p => ((stopAt s n).rank, p) := by
  rw [resolve, if_pos ⟨hdiv, inWindow_iff.mpr ⟨hlow, hhigh⟩, recordKind?_isSome_iff.mpr hrank⟩]
  simp only [hkind]

theorem resolve_voice_eq_some_iff (hkind : (stopAt s n).kind = .voice) (x : Nat × Nat) :
    resolve s d k n = some x ↔
      x.1 = (stopAt s n).rank ∧ voicePipe (stopAt s n) (rankAt s (stopAt s n).rank) d k = some x.2 := by
  rw [resolve_voice hdiv hlow hhigh hrank hkind, Option.map_eq_some_iff]
  constructor
  · rintro ⟨p, hp, rfl⟩
    exact ⟨rfl, hp⟩
  · rintro ⟨hr, hp⟩
    exact ⟨x.2, hp, Prod.ext hr.symm rfl⟩

end Resolve

/-! ### The statement -/

/-- Settles O49: the Resolver's rule for each kind of stop, with the rules of its note's pipe and of the two folds. -/
theorem resolverFollowsKindsAndFolds : Obligations.ResolverFollowsKindsAndFolds := by
  refine ⟨fun s d k n => ⟨resolve_eq_none, fun hdiv hlow hhigh hrank => ⟨fun hkind => ?_, fun hkind => ?_⟩⟩,
    fun s d k n => ?_⟩
  · rw [resolve_fixed hdiv hlow hhigh hrank hkind, fixedPipe]
    split <;> rfl
  · rw [← noteOf_eq]
    refine ⟨fun p hp hnote => ?_, fun hb hout => ?_⟩
    · rw [resolve_voice_eq_some_iff hdiv hlow hhigh hrank hkind, voicePipe_inRange (by omega) (by omega)]
      exact ⟨rfl, pipeOfNote_eq_some_iff.mpr ⟨hp, hnote⟩⟩
    · rw [resolve_voice hdiv hlow hhigh hrank hkind, voicePipe_silent hb, pipeOfNote_eq_none_iff.mpr hout]
      rfl
  · dsimp only
    rw [← noteOf_eq]
    intro hkind hb hdiv hlow hhigh hrank
    refine ⟨fun habove x => ?_, fun hbelow x => ?_, fun hcount => ?_⟩
    · rw [resolve_voice_eq_some_iff hdiv hlow hhigh hrank hkind, voicePipe_fold_above hb habove,
        pipeOfNote_lowerBelow_eq_some_iff habove]
    · rw [resolve_voice_eq_some_iff hdiv hlow hhigh hrank hkind, voicePipe_fold_below hb hbelow,
        pipeOfNote_raiseTo_eq_some_iff hbelow]
    · rw [resolve_voice hdiv hlow hhigh hrank hkind, Option.isSome_map]
      exact voicePipe_fold_isSome hb hcount

end Sys2Proof.Proofs.Resolver
end

section
/-! PROOFS. A claim request (R23 to R25): what the two searches of the sounding table find, one equation of the request
for each of its five outcomes, what a joining claim marks (R51, R57), what an admission leaves of the record that asks,
and the statement O39 from these. -/

namespace Sys2Proof.Proofs.Claims

open Sys2Proof.Machine Sys2Proof.Proofs.Resolver

/-! ### The searches of the table (R21, R24) -/

theorem findRecord_eq_some {s : State} (hs : OneRecordPerPipe s) {i : Nat} {r : Record}
    (h : recordAt s i = some r) : findRecord s r.rank r.pipe = some i := by
  cases hf : findRecord s r.rank r.pipe with
  | none => exact absurd ⟨rfl, rfl⟩ (findRecord_none hf h)
  | some j =>
    obtain ⟨q, hq, hrank, hpipe⟩ := findRecord_some hf
    rw [hs j i q r hq h hrank hpipe]

theorem findRecord_eq_none_iff {s : State} {rank pipe : Nat} :
    findRecord s rank pipe = none ↔ ∀ i r, recordAt s i = some r → ¬ (r.rank = rank ∧ r.pipe = pipe) := by
  refine ⟨fun hf i r => findRecord_none hf, fun h => ?_⟩
  cases hf : findRecord s rank pipe with
  | none => rfl
  | some i =>
    obtain ⟨r, hr, hit⟩ := findRecord_some hf
    exact absurd hit (h i r hr)

/-- The place that passes the test is the first to do so. -/
theorem firstPlace_le {f : Option Record → Bool} {t : List (Option Record)} {k i : Nat}
    (h : firstPlace f k t = some i) {j : Nat} {x : Option Record} (hx : t[j]? = some x) (hf : f x = true) :
    i ≤ k + j := by
  induction t generalizing k j with
  | nil => simp at hx
  | cons y t ih =>
    by_cases hy : f y = true
    · simp only [firstPlace, hy, if_true, Option.some.injEq] at h
      omega
    · simp only [firstPlace, hy] at h
      cases j with
      | zero =>
        obtain rfl : y = x := by simpa using hx
        exact absurd hf hy
      | succ j =>
        have := ih h (j := j) (by simpa using hx)
        omega

theorem toList_getElem?_eq_none_iff {s : State} {i : Nat} (hi : i < 448) :
    s.table.toList[i]? = some none ↔ recordAt s i = none := by
  simp [recordAt, look, hi]

theorem lowestFree_le {s : State} {i j : Nat} (h : lowestFree s = some i) (hj : j < 448)
    (hfree : recordAt s j = none) : i ≤ j := by
  simpa using firstPlace_le h ((toList_getElem?_eq_none_iff hj).mpr hfree) rfl

theorem lowestFree_eq_none {s : State} (h : ∀ i, i < 448 → recordAt s i ≠ none) : lowestFree s = none := by
  cases hl : lowestFree s with
  | none => rfl
  | some i =>
    obtain ⟨hfree, hi⟩ := lowestFree_some hl
    exact absurd hfree (h i hi)

theorem lowestFree_eq_some {s : State} {i : Nat} (hi : i < 448) (hfree : recordAt s i = none)
    (hbelow : ∀ j, j < i → recordAt s j ≠ none) : lowestFree s = some i := by
  cases hl : lowestFree s with
  | none =>
    have := firstPlace_none hl none (List.mem_of_getElem? ((toList_getElem?_eq_none_iff hi).mpr hfree))
    simp at this
  | some j =>
    have hle := lowestFree_le hl hi hfree
    have hnot : ¬ j < i := fun hlt => hbelow j hlt (lowestFree_some hl).1
    rw [show j = i by omega]

/-! ### The request's outcomes (R23 to R25) -/

section Outcomes

variable {s : State} {c : Claim}

/-- The pipe's record is in use: its list decides (R23). -/
theorem claimRequest_of_record (hs : OneRecordPerPipe s) {i : Nat} {r : Record} (h : recordAt s i = some r) :
    claimRequest s c r.rank r.pipe =
      if c ∈ r.claims then bump s .duplicateClaims
      else if Config.maxClaims ≤ r.claims.length then raise (bump s .claimOverflows) .claimOverflow (.number i)
      else joinClaim s i r c := by
  rw [claimRequest, findRecord_eq_some hs h]
  simp only [h]

theorem claimRequest_duplicate (hs : OneRecordPerPipe s) {i : Nat} {r : Record} (h : recordAt s i = some r)
    (hc : c ∈ r.claims) : claimRequest s c r.rank r.pipe = bump s .duplicateClaims := by
  rw [claimRequest_of_record hs h, if_pos hc]

theorem claimRequest_overflow (hs : OneRecordPerPipe s) {i : Nat} {r : Record} (h : recordAt s i = some r)
    (hc : c ∉ r.claims) (hl : Config.maxClaims ≤ r.claims.length) :
    claimRequest s c r.rank r.pipe = raise (bump s .claimOverflows) .claimOverflow (.number i) := by
  rw [claimRequest_of_record hs h, if_neg hc, if_pos hl]

theorem claimRequest_joins (hs : OneRecordPerPipe s) {i : Nat} {r : Record} (h : recordAt s i = some r)
    (hc : c ∉ r.claims) (hl : r.claims.length < Config.maxClaims) :
    claimRequest s c r.rank r.pipe = joinClaim s i r c := by
  rw [claimRequest_of_record hs h, if_neg hc, if_neg (Nat.not_le_of_lt hl)]

theorem claimRequest_tableFull {rank pipe : Nat} {kind : RecordKind} (hf : findRecord s rank pipe = none)
    (hkind : recordKind? (rankAt s rank).kind = some kind) (hl : lowestFree s = none) :
    claimRequest s c rank pipe = raise (bump s .tableFullClaims) .tableFull (.rankPipe rank pipe) := by
  rw [claimRequest, hf]
  simp only [hkind, hl]

theorem claimRequest_creates {rank pipe i : Nat} {kind : RecordKind} (hf : findRecord s rank pipe = none)
    (hkind : recordKind? (rankAt s rank).kind = some kind) (hl : lowestFree s = some i) :
    claimRequest s c rank pipe = admissionRequest (setRecord s i (some (newRecord kind rank pipe c))) i := by
  rw [claimRequest, hf]
  simp only [hkind, hl]

end Outcomes

/-! ### A joining claim (R51, R54, R57) -/

theorem joinSetsRestrike_iff {r : Record} :
    joinSetsRestrike r = true ↔
      (r.kind = .strike ∧ (r.state = .striking ∨ r.state = .settling))
        ∨ (r.kind = .reiterate ∧ r.state = .striking ∧ r.cycle = none) := by
  unfold joinSetsRestrike
  split
  next hk hst => simp [hk, hst]
  next hk hst => simp [hk, hst]
  next hk hst => simp [hk, hst]
  next hstrike hsettle hroll =>
    simp only [Bool.false_eq_true, false_iff]
    rintro (⟨hk, hst | hst⟩ | ⟨hk, hst, -⟩)
    · exact hstrike hk hst
    · exact hsettle hk hst
    · exact hroll hk hst

theorem joined_marks {r : Record} (c : Claim) (h : joinSetsRestrike r = true) :
    joined r c = { r with claims := r.claims ++ [c], restrike := true } := by
  rw [joined, h, Bool.or_true]

theorem joined_leaves {r : Record} (c : Claim) (h : joinSetsRestrike r = false) :
    joined r c = { r with claims := r.claims ++ [c] } := by
  rw [joined, h, Bool.or_false]

theorem not_joinSetsRestrike_of_struck {r : Record} (h : r.state = .struck) : joinSetsRestrike r = false := by
  rw [Bool.eq_false_iff, ne_eq, joinSetsRestrike_iff]
  simp [h]

theorem joinClaim_asks {s : State} {i : Nat} {r : Record} (c : Claim) (h : r.kind = .strike ∧ r.state = .struck) :
    joinClaim s i r c = admissionRequest (setRecord s i (some (joined r c))) i := by
  rw [joinClaim, if_pos h]

theorem joinClaim_rests {s : State} {i : Nat} {r : Record} (c : Claim)
    (h : ¬ (r.kind = .strike ∧ r.state = .struck)) : joinClaim s i r c = setRecord s i (some (joined r c)) := by
  rw [joinClaim, if_neg h]

/-! ### The record that asks for admission (R30, R70) -/

theorem recordAt_admissionRequest_same {s : State} {i : Nat} {r : Record} (h : recordAt s i = some r) :
    recordAt (admissionRequest s i) i = some (asAdmitted (rankAt s r.rank) r)
      ∨ recordAt (admissionRequest s i) i = some (waitFor (railAt s (railOf s r)) r) := by
  have hi := recordAt_lt h
  simp only [admissionRequest, h]
  split
  · exact Or.inl (by rw [recordAt_admitRecord, if_pos ⟨rfl, hi⟩])
  · exact Or.inr (by rw [recordAt_deferRecord, if_pos ⟨rfl, hi⟩])

/-- Whatever the outcome, the record keeps its claims, and its flags but those that an admission clears. -/
theorem admissionRequest_keeps {s : State} {i : Nat} {r : Record} (h : recordAt s i = some r) :
    ∃ y, recordAt (admissionRequest s i) i = some y ∧ y.rank = r.rank ∧ y.pipe = r.pipe ∧ y.kind = r.kind
      ∧ y.claims = r.claims ∧ y.restrike = r.restrike ∧ (r.overdue = false → y.overdue = false)
      ∧ (r.paused = false → y.paused = false) ∧ (r.cycleHeld = false → y.cycleHeld = false) := by
  rcases recordAt_admissionRequest_same h with hy | hy
  · exact ⟨_, hy, rfl, rfl, rfl, rfl, rfl, fun _ => rfl, fun hpaused => by simp [asAdmitted, hpaused],
      fun hheld => by simp [asAdmitted, hheld]⟩
  · exact ⟨_, hy, rfl, rfl, rfl, rfl, rfl, id, fun _ => rfl, fun _ => rfl⟩

theorem joinClaim_claims {s : State} {i : Nat} {r : Record} (c : Claim) (h : recordAt s i = some r) :
    ∃ y, recordAt (joinClaim s i r c) i = some y ∧ y.claims = r.claims ++ [c] := by
  have hjoined : recordAt (setRecord s i (some (joined r c))) i = some (joined r c) := by
    rw [recordAt_setRecord, if_pos ⟨rfl, recordAt_lt h⟩]
  by_cases hasks : r.kind = .strike ∧ r.state = .struck
  · obtain ⟨y, hy, -, -, -, hclaims, -⟩ := admissionRequest_keeps hjoined
    exact ⟨y, joinClaim_asks c hasks ▸ hy, hclaims⟩
  · exact ⟨_, joinClaim_rests c hasks ▸ hjoined, rfl⟩

/-! ### The state a new record is created in (R24) -/

theorem setRecord_setRecord (s : State) (i : Nat) (a b : Option Record) :
    setRecord (setRecord s i a) i b = setRecord s i b := by
  simp [setRecord, put]

/-- A record's place is overwritten by what is stored there; only the charge it held counts. -/
theorem storeRecord_setRecord {s : State} {i : Nat} (hi : i < 448) (a x : Record) :
    storeRecord (setRecord s i (some a)) i x =
      setRail (setRecord s i (some x)) (railOf s x)
        { railAt s (railOf s x) with draw := (railAt s (railOf s x)).draw + x.charge - a.charge } := by
  have hcharge : chargeAt (setRecord s i (some a)) i = a.charge := by
    rw [chargeAt, recordAt_setRecord, if_pos ⟨rfl, hi⟩]
  rw [storeRecord, hcharge, setRecord_setRecord]
  rfl

theorem asAdmitted_state (e : RankEntry) (r : Record) (st : RecordState) :
    asAdmitted e { r with state := st } = asAdmitted e r := rfl

/-- The outcome of an admission request does not look at the state in which the record asks. -/
theorem admissionRequest_setRecord_state {s : State} {i : Nat} (hi : i < 448) (r : Record) (st : RecordState) :
    admissionRequest (setRecord s i (some { r with state := st })) i
      = admissionRequest (setRecord s i (some r)) i := by
  have hat (a : Record) : recordAt (setRecord s i (some a)) i = some a := by
    rw [recordAt_setRecord, if_pos ⟨rfl, hi⟩]
  have hstore (x : Record) : storeRecord (setRecord s i (some { r with state := st })) i x
      = storeRecord (setRecord s i (some r)) i x := by
    rw [storeRecord_setRecord hi, storeRecord_setRecord hi]
  have hadmit : admitRecord (setRecord s i (some { r with state := st })) i { r with state := st }
      = admitRecord (setRecord s i (some r)) i r := by
    rw [admitRecord, hstore, energize_eq_asAdmitted, asAdmitted_state, ← energize_eq_asAdmitted]
    rfl
  have hdefer : deferRecord (setRecord s i (some { r with state := st })) i { r with state := st }
      = deferRecord (setRecord s i (some r)) i r := by
    simp only [deferRecord, hstore]
    rfl
  simp only [admissionRequest, hat, hadmit, hdefer]
  rfl

/-- A new record at a FREE index, after its admission request: the rank's kind, its one claim, its flags clear; and the
state named at its creation does not matter. -/
theorem newRecord_admitted {s : State} {i : Nat} (hi : i < 448) (kind : RecordKind) (rank pipe : Nat) (c : Claim) :
    let t := admissionRequest (setRecord s i (some (newRecord kind rank pipe c))) i
    ∃ x, recordAt t i = some x ∧ x.rank = rank ∧ x.pipe = pipe ∧ x.kind = kind ∧ x.claims = [c]
      ∧ (∀ j, j ≠ i → recordAt t j = recordAt s j)
      ∧ x.restrike = false ∧ x.overdue = false ∧ x.paused = false ∧ x.cycleHeld = false
      ∧ ∀ st, t = admissionRequest (setRecord s i (some { newRecord kind rank pipe c with state := st })) i := by
  have hnew : recordAt (setRecord s i (some (newRecord kind rank pipe c))) i = some (newRecord kind rank pipe c) := by
    rw [recordAt_setRecord, if_pos ⟨rfl, hi⟩]
  obtain ⟨x, hx, hrank, hpipe, hkind, hclaims, hrestrike, hoverdue, hpaused, hheld⟩ := admissionRequest_keeps hnew
  refine ⟨x, hx, hrank, hpipe, hkind, hclaims, fun j hj => ?_, hrestrike, hoverdue rfl, hpaused rfl, hheld rfl,
    fun st => (admissionRequest_setRecord_state hi _ st).symm⟩
  rw [recordAt_admissionRequest_ne _ hj.symm, recordAt_setRecord, if_neg fun h => hj h.1.symm]

/-! ### The statement -/

/-- Settles O39: the invariant and the claims by the rule of what a claim request can do, and each outcome by its own
equation of the request. -/
theorem claimRequestAddsAtMostItsOwnClaim : Obligations.ClaimRequestAddsAtMostItsOwnClaim := by
  intro s c rank pipe hs
  have hone : OneRecordPerPipe s := hs.1
  have plays := plays_claimRequest s c rank pipe
  refine ⟨plays.sound hs, plays.claims, ?duplicate, ?overflow, ?joins, fun hnone hkinds => ?fresh⟩
  case duplicate =>
    rintro i r h rfl rfl hc
    exact claimRequest_duplicate hone h hc
  case overflow =>
    rintro i r h rfl rfl hc hl
    exact claimRequest_overflow hone h hc hl.ge
  case joins =>
    rintro i r h rfl rfl hc hl
    rw [claimRequest_joins hone h hc hl]
    dsimp only
    rw [← joinSetsRestrike_iff]
    refine ⟨fun hmarked => ?_, fun hasks => ?_, fun hmarked hasks => ?_, joinClaim_claims c h⟩
    · have hstruck : ¬ (r.kind = .strike ∧ r.state = .struck) := fun hasks =>
        Bool.eq_false_iff.mp (not_joinSetsRestrike_of_struck hasks.2) hmarked
      rw [joinClaim_rests c hstruck, joined_marks c hmarked]
    · rw [joinClaim_asks c hasks, joined_leaves c (not_joinSetsRestrike_of_struck hasks.2)]
    · rw [joinClaim_rests c hasks, joined_leaves c (Bool.eq_false_iff.mpr hmarked)]
  case fresh =>
    have hf := findRecord_eq_none_iff.mpr hnone
    obtain ⟨kind, hkind⟩ := Option.isSome_iff_exists.mp (recordKind?_isSome_iff.mpr hkinds)
    refine ⟨fun hfull => claimRequest_tableFull hf hkind (lowestFree_eq_none hfull), fun i hi hfree hbelow => ?_⟩
    rw [claimRequest_creates hf hkind (lowestFree_eq_some hi hfree hbelow)]
    obtain ⟨x, hx, hrank, hpipe, rfl, hrest⟩ := newRecord_admitted hi kind rank pipe c
    exact ⟨x, hx, hrank, hpipe, hkind, hrest⟩

end Sys2Proof.Proofs.Claims
end

section
/-! PROOFS. The supply allocator (R56, R70, R74 to R76): a judgment on a rail's draw, what an admission and a deferral
leave of each rail, the head-of-line pass one head at a time and at its end, the resumption as one request of each
paused roll, and the statement O38 from these. -/

namespace Sys2Proof.Proofs.Supply

open Sys2Proof.Machine

/-! ### Strain (R76) -/

theorem judged_of_high_lt {r : Rail} (h : r.entry.high < r.draw) : judged r = true := by
  rw [judged, if_pos h]

theorem judged_of_lt_low {r : Rail} (hlow : r.draw < r.entry.low) (hhigh : r.draw ≤ r.entry.high) :
    judged r = false := by
  rw [judged, if_neg hhigh.not_gt, if_pos hlow]

theorem judged_between {r : Rail} (hlow : r.entry.low ≤ r.draw) (hhigh : r.draw ≤ r.entry.high) :
    judged r = r.strained := by
  rw [judged, if_neg hhigh.not_gt, if_neg hlow.not_gt]

theorem railAt_judgeStrain_same (s : State) {k : Nat} (hk : k < 4) :
    railAt (judgeStrain s k) k = { railAt s k with strained := judged (railAt s k) } := by
  rw [judgeStrain, railAt_setRail, if_pos ⟨rfl, hk⟩]

theorem railAt_judgeStrain_ne (s : State) {k m : Nat} (h : m ≠ k) : railAt (judgeStrain s k) m = railAt s m := by
  rw [judgeStrain, railAt_setRail, if_neg fun x => h x.1.symm]

theorem put_look {α : Type} {n : Nat} (v : Vector α n) {i : Nat} (d : α) (h : i < n) : put v i (look v i d) = v := by
  ext j hj
  by_cases hij : i = j
  · subst hij
    simp [put, look_lt v d h]
  · simp [put, hij]

theorem setRail_railAt (s : State) {k : Nat} (hk : k < 4) : setRail s k (railAt s k) = s := by
  rw [setRail, railAt, put_look _ _ hk]

theorem judgeStrain_eq_self {s : State} {k : Nat} (hk : k < 4) (h : judged (railAt s k) = (railAt s k).strained) :
    judgeStrain s k = s := by
  rw [judgeStrain, h]
  exact setRail_railAt s hk

/-! ### One admission request (R30, R70) -/

/-- A rail whose draw has risen by `pull` units, judged on the risen draw (R70, R76). -/
def risenBy (rail : Rail) (pull : Nat) : Rail :=
  { rail with draw := rail.draw + pull, strained := judged { rail with draw := rail.draw + pull } }

theorem energize_charge (e : RankEntry) (r : Record) : (energize e r).charge = e.pull := by
  rw [energize_eq_asAdmitted, asAdmitted]

theorem railOf_energize (s : State) (e : RankEntry) (r : Record) : railOf s (energize e r) = railOf s r := by
  rw [energize_eq_asAdmitted]
  rfl

theorem chargeAt_of_recordAt {s : State} {i : Nat} {r : Record} (h : recordAt s i = some r) :
    chargeAt s i = r.charge := by
  rw [chargeAt, h]

theorem railAt_admitRecord_same {s : State} {i : Nat} {r : Record} (h : recordAt s i = some r) (hcharge : r.charge = 0)
    (hk : railOf s r < 4) :
    railAt (admitRecord s i r) (railOf s r) = risenBy (railAt s (railOf s r)) (rankAt s r.rank).pull := by
  rw [admitRecord, railAt_judgeStrain_same _ hk, railAt_storeRecord _ _ _ _ hk, railOf_energize, if_pos rfl,
    energize_charge, chargeAt_of_recordAt h, hcharge, Nat.sub_zero, risenBy]

theorem railAt_admitRecord_ne (s : State) (i : Nat) (r : Record) {m : Nat} (hm : m < 4) (h : m ≠ railOf s r) :
    railAt (admitRecord s i r) m = railAt s m := by
  rw [admitRecord, railAt_judgeStrain_ne _ h, railAt_storeRecord _ _ _ _ hm, railOf_energize, if_neg h.symm]

theorem admitRecord_frame (s : State) (i : Nat) (r : Record) :
    admitRecord s i r = { s with table := (admitRecord s i r).table, rails := (admitRecord s i r).rails } := rfl

/-- A deferral moves no draw: the record asks with charge 0 and waits with charge 0. -/
theorem railAt_deferRecord_same {s : State} {i : Nat} {r : Record} (h : recordAt s i = some r) (hcharge : r.charge = 0)
    (hk : railOf s r < 4) :
    railAt (deferRecord s i r) (railOf s r) =
      { railAt s (railOf s r) with deferred := (railAt s (railOf s r)).deferred ++ [i] } := by
  have hstore : railAt (storeRecord s i (waitFor (railAt s (railOf s r)) r)) (railOf s r) = railAt s (railOf s r) := by
    rw [railAt_storeRecord _ _ _ _ hk, chargeAt_of_recordAt h, hcharge]
    exact ite_self _
  rw [deferRecord]
  dsimp only
  rw [railAt_bump, railAt_setRail, if_pos ⟨rfl, hk⟩, hstore]

theorem railAt_deferRecord_ne (s : State) (i : Nat) (r : Record) {m : Nat} (hm : m < 4) (h : m ≠ railOf s r) :
    railAt (deferRecord s i r) m = railAt s m := by
  rw [deferRecord]
  dsimp only
  rw [railAt_bump, railAt_setRail, if_neg fun x => h x.1.symm, railAt_storeRecord _ _ _ _ hm]
  exact if_neg h.symm

theorem counterAt_bump_same (s : State) {c : Counter} (h : Counter.place c < 24) :
    counterAt (bump s c) c = countUp (counterAt s c) := by
  rw [counterAt, bump_counters, look_put_same _ _ _ h]

theorem counterAt_deferRecord (s : State) (i : Nat) (r : Record) :
    counterAt (deferRecord s i r) .deferredAdmissions = countUp (counterAt s .deferredAdmissions) :=
  counterAt_bump_same _ (by decide)

theorem deferRecord_frame (s : State) (i : Nat) (r : Record) :
    deferRecord s i r = { s with
      table := (deferRecord s i r).table, rails := (deferRecord s i r).rails
      counters := (deferRecord s i r).counters } := rfl

theorem admitsNow_iff {rail : Rail} {pull : Nat} :
    admitsNow rail pull = true ↔ rail.deferred = [] ∧ rail.draw + pull ≤ rail.entry.capacity := by
  rw [admitsNow, Bool.and_eq_true, List.isEmpty_iff, decide_eq_true_eq]

theorem admissionRequest_admits {s : State} {i : Nat} {r : Record} (h : recordAt s i = some r)
    (hempty : (railAt s (railOf s r)).deferred = [])
    (hfits : (railAt s (railOf s r)).draw + (rankAt s r.rank).pull ≤ (railAt s (railOf s r)).entry.capacity) :
    admissionRequest s i = admitRecord s i r := by
  simp only [admissionRequest, h, admitsNow_iff.mpr ⟨hempty, hfits⟩, if_true]

theorem admissionRequest_defers {s : State} {i : Nat} {r : Record} (h : recordAt s i = some r)
    (hnot : (railAt s (railOf s r)).deferred ≠ []
      ∨ (railAt s (railOf s r)).entry.capacity < (railAt s (railOf s r)).draw + (rankAt s r.rank).pull) :
    admissionRequest s i = deferRecord s i r := by
  have hno : ¬ admitsNow (railAt s (railOf s r)) (rankAt s r.rank).pull = true := by
    rw [admitsNow_iff]
    rintro ⟨hempty, hfits⟩
    exact hnot.elim (fun hlist => hlist hempty) hfits.not_gt
  simp only [admissionRequest, h, if_neg hno]

theorem admissionRequest_eq_or {s : State} {i : Nat} {r : Record} (h : recordAt s i = some r) :
    admissionRequest s i = admitRecord s i r ∨ admissionRequest s i = deferRecord s i r := by
  simp only [admissionRequest, h]
  split
  · exact .inl rfl
  · exact .inr rfl

theorem railAt_admissionRequest_ne {s : State} {i : Nat} {r : Record} (h : recordAt s i = some r) {m : Nat}
    (hm : m < 4) (hne : m ≠ railOf s r) : railAt (admissionRequest s i) m = railAt s m := by
  rcases admissionRequest_eq_or h with ht | ht
  · rw [ht, railAt_admitRecord_ne s i r hm hne]
  · rw [ht, railAt_deferRecord_ne s i r hm hne]

theorem admissionRequest_frame {s : State} {i : Nat} {r : Record} (h : recordAt s i = some r) :
    admissionRequest s i = { s with
      table := (admissionRequest s i).table, rails := (admissionRequest s i).rails
      counters := (admissionRequest s i).counters } := by
  rcases admissionRequest_eq_or h with ht | ht
  · rw [ht]; exact admitRecord_frame s i r
  · rw [ht]; exact deferRecord_frame s i r

/-! ### The head-of-line pass (R75) -/

/-- Rail `k` with its head `i` taken off the list, the rest being `rest`, and the head's record `r` admitted (R75). -/
def admitHead (k : Nat) (s : State) (i : Nat) (rest : List Nat) (r : Record) : State :=
  admitRecord (setRail s k { railAt s k with deferred := rest }) i r

/-- The pass with fuel left stops, since no head fits, or admits the head and goes on. -/
theorem headPass_succ_cases (k n : Nat) (s : State) :
    (headPass k (n + 1) s = s
        ∧ ∀ i rest r, (railAt s k).deferred = i :: rest → recordAt s i = some r →
          (railAt s k).entry.capacity < (railAt s k).draw + (rankAt s r.rank).pull)
      ∨ ∃ i rest r, (railAt s k).deferred = i :: rest ∧ recordAt s i = some r
        ∧ headPass k (n + 1) s = headPass k n (admitHead k s i rest r) := by
  cases hlist : (railAt s k).deferred with
  | nil => exact .inl ⟨headPass_empty hlist _, by simp⟩
  | cons i rest =>
    cases hr : recordAt s i with
    | none =>
      refine .inl ⟨by rw [headPass, hlist]; dsimp only; rw [hr], ?_⟩
      rintro j _ r ⟨⟩ hj
      exact absurd (hr.symm.trans hj) (by simp)
    | some r =>
      rcases Nat.lt_or_ge (railAt s k).entry.capacity ((railAt s k).draw + (rankAt s r.rank).pull) with hfull | hfits
      · refine .inl ⟨headPass_stops hlist hr hfull _, ?_⟩
        rintro j _ q ⟨⟩ hj
        obtain rfl := Option.some.inj (hr.symm.trans hj)
        exact hfull
      · exact .inr ⟨i, rest, r, rfl, hr, headPass_admits hlist hr hfits n⟩

theorem deferred_admitHead {k : Nat} (hk : k < 4) (s : State) (i : Nat) (rest : List Nat) (r : Record) :
    (railAt (admitHead k s i rest r) k).deferred = rest := by
  rw [admitHead, deferred_admitRecord _ _ _ _ hk, railAt_setRail, if_pos ⟨rfl, hk⟩]

theorem recordAt_admitHead (k : Nat) (s : State) (i : Nat) (rest : List Nat) (r : Record) (j : Nat) :
    recordAt (admitHead k s i rest r) j =
      if i = j ∧ i < 448 then some (asAdmitted (rankAt s r.rank) r) else recordAt s j := by
  rw [admitHead, recordAt_admitRecord, rankAt_setRail, recordAt_setRail]

theorem railAt_admitHead_same {k : Nat} (hk : k < 4) {s : State} {i : Nat} (rest : List Nat) {r : Record}
    (h : recordAt s i = some r) (hcharge : r.charge = 0) (hrail : railOf s r = k) :
    railAt (admitHead k s i rest r) k =
      risenBy { railAt s k with deferred := rest } (rankAt s r.rank).pull := by
  subst hrail
  have hadmit := railAt_admitRecord_same
    (s := setRail s (railOf s r) { railAt s (railOf s r) with deferred := rest }) h hcharge hk
  rwa [railOf_setRail, rankAt_setRail, railAt_setRail, if_pos ⟨rfl, hk⟩] at hadmit

theorem railAt_admitHead_ne {k : Nat} {s : State} (i : Nat) (rest : List Nat) {r : Record} (hrail : railOf s r = k)
    {m : Nat} (hm : m < 4) (h : m ≠ k) : railAt (admitHead k s i rest r) m = railAt s m := by
  rw [admitHead, railAt_admitRecord_ne _ _ _ hm (by rwa [railOf_setRail, hrail]), railAt_setRail,
    if_neg fun x => h x.1.symm]

theorem admitHead_frame (k : Nat) (s : State) (i : Nat) (rest : List Nat) (r : Record) :
    admitHead k s i rest r = { s with
      table := (admitHead k s i rest r).table, rails := (admitHead k s i rest r).rails } := rfl

/-- The pass takes records off the front of the list, in order. -/
theorem deferred_headPass {k : Nat} (hk : k < 4) (n : Nat) (s : State) :
    ∃ m, (railAt (headPass k n s) k).deferred = (railAt s k).deferred.drop m := by
  induction n generalizing s with
  | zero => exact ⟨0, rfl⟩
  | succ n ih =>
    rcases headPass_succ_cases k n s with ⟨hstop, -⟩ | ⟨i, rest, r, hlist, -, hgo⟩
    · exact ⟨0, by rw [hstop, List.drop_zero]⟩
    · obtain ⟨m, hm⟩ := ih (admitHead k s i rest r)
      rw [deferred_admitHead hk] at hm
      exact ⟨m + 1, by rw [hgo, hm, hlist, List.drop_succ_cons]⟩

/-- With fuel for the whole list, the pass ends at a head that does not fit, if at any. -/
theorem headPass_ends {k : Nat} (hk : k < 4) (n : Nat) (s : State) (hfuel : (railAt s k).deferred.length ≤ n) :
    ∀ i rest r, (railAt (headPass k n s) k).deferred = i :: rest → recordAt (headPass k n s) i = some r →
      (railAt (headPass k n s) k).entry.capacity
        < (railAt (headPass k n s) k).draw + (rankAt (headPass k n s) r.rank).pull := by
  induction n generalizing s with
  | zero =>
    intro i rest r hlist
    rw [headPass, List.eq_nil_of_length_eq_zero (Nat.le_zero.mp hfuel)] at hlist
    exact absurd hlist (by simp)
  | succ n ih =>
    rcases headPass_succ_cases k n s with ⟨hstop, hfull⟩ | ⟨i, rest, r, hlist, -, hgo⟩
    · rwa [hstop]
    · rw [hgo]
      refine ih _ ?_
      rw [deferred_admitHead hk]
      rw [hlist, List.length_cons] at hfuel
      exact Nat.le_of_succ_le_succ hfuel

/-! ### The resumption (R56) -/

/-- Index `i` holds a paused REITERATE record of rail `k`. -/
def resumes (k : Nat) (s : State) (i : Nat) : Bool :=
  (recordAt s i).any fun r => decide (r.kind = .reiterate ∧ r.paused = true ∧ railOf s r = k)

/-- The request of the record at index `i`, its paused flag cleared as it asks. -/
def askAgain (s : State) (i : Nat) : State :=
  admissionRequest (setRecord s i ((recordAt s i).map fun r => { r with paused := false })) i

theorem resumes_iff {k : Nat} {s : State} {i : Nat} :
    resumes k s i = true ↔ ∃ r, recordAt s i = some r ∧ r.kind = .reiterate ∧ r.paused = true ∧ railOf s r = k := by
  rw [resumes, Option.any_eq_true]
  simp only [decide_eq_true_eq]

theorem resumeAt_eq (k : Nat) (s : State) (i : Nat) :
    resumeAt k s i = if resumes k s i = true then askAgain s i else s := by
  unfold resumeAt resumes askAgain
  cases recordAt s i with
  | none => rfl
  | some r => simp only [Option.any_some, decide_eq_true_eq, Option.map_some]

/-- What one index does to the records does not bear on whether another resumes. -/
theorem resumes_resumeAt_ne (k : Nat) (s : State) {i j : Nat} (h : i ≠ j) :
    resumes k (resumeAt k s i) j = resumes k s j := by
  have hrank := (evolves_resumeAt k s i).rankAt_eq
  have hrecord : recordAt (resumeAt k s i) j = recordAt s j := by
    rw [resumeAt_eq]
    split
    · rw [askAgain, recordAt_admissionRequest_ne _ h, recordAt_setRecord, if_neg fun x => h x.1]
    · rfl
  rw [Bool.eq_iff_iff, resumes_iff, resumes_iff]
  simp only [hrecord, railOf, hrank]

/-- Over places that are all different, those that ask are those that resume at the start. -/
theorem foldl_resumeAt (k : Nat) {xs : List Nat} (hxs : xs.Nodup) (s : State) :
    xs.foldl (resumeAt k) s = (xs.filter (resumes k s)).foldl askAgain s := by
  induction xs generalizing s with
  | nil => rfl
  | cons i xs ih =>
    obtain ⟨hi, hrest⟩ := List.nodup_cons.mp hxs
    have hsame : xs.filter (resumes k (resumeAt k s i)) = xs.filter (resumes k s) :=
      List.filter_congr fun j hj => resumes_resumeAt_ne k s fun hij => hi (hij ▸ hj)
    rw [List.foldl_cons, ih hrest, hsame, resumeAt_eq]
    by_cases hres : resumes k s i = true
    · rw [if_pos hres, List.filter_cons_of_pos hres, List.foldl_cons]
    · rw [if_neg hres, List.filter_cons_of_neg hres]

/-- The resumption, for any ascending list of the indexes that resume. -/
theorem resumption_eq {k : Nat} {s : State} {ks : List Nat} (hasc : ks.Pairwise (· < ·))
    (hks : ∀ i, i ∈ ks ↔ resumes k s i = true) : resumption s k = ks.foldl askAgain s := by
  have hmem : ∀ i, i ∈ ks ↔ i ∈ (occupied s).filter (resumes k s) := by
    intro i
    rw [hks, List.mem_filter, mem_occupied]
    refine ⟨fun hres => ?_, And.right⟩
    obtain ⟨r, hr, -⟩ := resumes_iff.mp hres
    exact ⟨⟨r, hr⟩, hres⟩
  rw [resumption, foldl_resumeAt k (nodup_occupied s),
    hasc.eq_of_mem_iff ((pairwise_occupied s).filter _) hmem]

/-! ### The allocator's work (R74) -/

theorem allocatorWork_resumes {s : State} {k : Nat} (hbefore : (railAt s k).strained = true)
    (hafter : (railAt (judgeStrain s k) k).strained = false) :
    allocatorWork s k = resumption (headPass k (railAt s k).deferred.length (judgeStrain s k)) k := by
  rw [allocatorWork]
  simp only [hbefore, hafter, deferred_judgeStrain, Bool.not_false, Bool.and_self, if_true]

theorem allocatorWork_passes {s : State} {k : Nat}
    (h : (railAt s k).strained = false ∨ (railAt (judgeStrain s k) k).strained = true) :
    allocatorWork s k = headPass k (railAt s k).deferred.length (judgeStrain s k) := by
  have hno : ((railAt s k).strained && !(railAt (judgeStrain s k) k).strained) = false := by
    rcases h with h | h <;> rw [h] <;> simp
  rw [allocatorWork]
  simp only [hno, deferred_judgeStrain, Bool.false_eq_true, if_false]

/-! ### The statement -/

/-- Settles O38: an admission request by its two outcomes, a judgment by the place of the draw, the pass by its next
head, and the allocator's work by the pass's end and the resumption's requests. -/
theorem railsAdmitInOrderAndJudgeStrain : Obligations.RailsAdmitInOrderAndJudgeStrain := by
  refine ⟨fun s i r h hcharge hk => ⟨fun hempty hfits => ?admitted, fun hnot => ?deferred,
      fun j hj => recordAt_admissionRequest_ne s hj.symm, fun m hm hne => railAt_admissionRequest_ne h hm hne,
      admissionRequest_frame h⟩,
    fun s k hk hmarks => ⟨fun habove => ?above, fun hbelow => ?below, fun hlow hhigh => ?between⟩,
    fun s k hk => ⟨headPass_empty, fun i rest r hlist hr => ⟨headPass_stops hlist hr, fun hfits hrail hcharge => ?head⟩⟩,
    fun s k hk => ⟨?front, ?ends, fun hbefore hafter ks hasc hks => ?resumed, allocatorWork_passes⟩⟩
  case admitted =>
    have hrail := railAt_admitRecord_same h hcharge hk
    rw [admissionRequest_admits h hempty hfits]
    refine ⟨(congrArg Rail.draw hrail :), (congrArg Rail.deferred hrail).trans hempty, (congrArg Rail.strained hrail :),
      rfl, asAdmitted (rankAt s r.rank) r, ?_, rfl, rfl, ?_, rfl⟩
    · rw [recordAt_admitRecord, if_pos ⟨rfl, recordAt_lt h⟩]
    · rw [asAdmitted]
      cases r.kind <;> rfl
  case deferred =>
    have hrail := railAt_deferRecord_same h hcharge hk
    rw [admissionRequest_defers h hnot]
    refine ⟨(congrArg Rail.draw hrail :), (congrArg Rail.deferred hrail :), counterAt_deferRecord s i r,
      waitFor (railAt s (railOf s r)) r, ?_, rfl, rfl, rfl, rfl, rfl⟩
    rw [recordAt_deferRecord, if_pos ⟨rfl, recordAt_lt h⟩]
  case above =>
    rw [railAt_judgeStrain_same s hk]
    exact judged_of_high_lt habove
  case below =>
    rw [railAt_judgeStrain_same s hk]
    exact judged_of_lt_low hbelow (hbelow.trans hmarks).le
  case between => exact judgeStrain_eq_self hk (judged_between hlow hhigh)
  case head =>
    refine ⟨admitHead k s i rest r, headPass_admits hlist hr hfits, ?_, fun j hj => ?_,
      railAt_admitHead_same hk rest hr hcharge hrail, fun m hm hne => railAt_admitHead_ne i rest hrail hm hne,
      admitHead_frame k s i rest r⟩
    · rw [recordAt_admitHead, if_pos ⟨rfl, recordAt_lt hr⟩]
    · rw [recordAt_admitHead, if_neg fun x => hj x.1.symm]
  case front =>
    rw [← deferred_judgeStrain s k k]
    exact deferred_headPass hk _ _
  case ends => exact headPass_ends hk _ _ (by rw [deferred_judgeStrain])
  case resumed =>
    rw [allocatorWork_resumes hbefore hafter]
    have hranks := ((evolves_judgeStrain s k).trans (evolves_headPass k (railAt s k).deferred.length _)).rankAt_eq
    exact resumption_eq hasc fun i => by simp only [hks, resumes_iff, railOf, hranks]

end Sys2Proof.Proofs.Supply
end

section
/-! PROOFS. The piston unit: SET_LEVEL (R111), what a piston make comes to (R101), the record a capture stores (R109),
its name's way into the dirty list (R113) and READ_DIRTY (R114). One rule for each operation, and the statements O22 and
O27 from these. -/

namespace Sys2Proof.Proofs.Pistons

open Sys2Proof.Machine

/-! ### SET_LEVEL (R111) -/

theorem exec_setLevel (params : List Byte) (s : State) :
    exec (.setLevel params) s = .next (request takenInRun 2 params (setLevelWork params) s) := rfl

theorem takenInRun_iff {m : Mode} : takenInRun m = true ↔ m = .run := by
  cases m <;> simp [takenInRun]

theorem byteAt_pair {a b : Nat} (ha : a < 256) (hb : b < 256) :
    byteAt [byte a, byte b] 0 = a ∧ byteAt [byte a, byte b] 1 = b :=
  ⟨toNat_byte ha, toNat_byte hb⟩

theorem enabledPort_eq_some {s : State} {code : Nat} {p : PortId} (hp : portOfCode code = some p)
    (he : (portAt s p).entry.enabled = true) : enabledPort s code = some p := by
  simp only [enabledPort, hp, he, if_true]

theorem enabledPort_eq_none_iff {s : State} {code : Nat} :
    enabledPort s code = none ↔
      portOfCode code = none ∨ ∃ p, portOfCode code = some p ∧ (portAt s p).entry.enabled = false := by
  cases hp : portOfCode code with
  | none => simp [enabledPort, hp]
  | some p => simp [enabledPort, hp]

theorem setLevelWork_sets {s : State} {params : List Byte} {p : PortId}
    (hp : enabledPort s (byteAt params 0) = some p) (hlevel : byteAt params 1 ≤ 15) :
    setLevelWork params s = (setPortLevel s p (byteAt params 1), okWith []) := by
  simp only [setLevelWork, hp, if_neg hlevel.not_gt]

theorem setLevelWork_refuses {s : State} {params : List Byte}
    (h : enabledPort s (byteAt params 0) = none ∨ 15 < byteAt params 1) :
    setLevelWork params s = refuse s .range := by
  unfold setLevelWork
  split
  next => rfl
  next p hp => rw [if_pos (h.resolve_left (by rw [hp]; exact Option.some_ne_none p))]

theorem exec_setLevel_run {s : State} (h : PortFree s) (hmode : s.mode = .run) (a b : Byte) :
    exec (.setLevel [a, b]) s = .next (respond (setLevelWork [a, b] (idleFill s))) := by
  have hlength : [a, b].length = 2 := rfl
  rw [exec_setLevel, request_work _ _ h (takenInRun_iff.mpr hmode) hlength]

/-- A level set in an answered request's work is the level set in the answered state. -/
theorem respond_setPortLevel (s : State) (p : PortId) (level : Nat) :
    respond (setPortLevel (idleFill s) p level, okWith []) =
      setPort (answered s .ok []) p { portAt s p with level := level } := by
  cases p <;> rfl

/-- Settles O22: the mode, then the port and the level decide what SET_LEVEL comes to. -/
theorem setLevelSetsThePortLevel : Obligations.SetLevelSetsThePortLevel := by
  intro s code level hfree hcode hlevel
  obtain ⟨hb0, hb1⟩ := byteAt_pair hcode hlevel
  refine ⟨fun hmode => ?_, fun hmode => ⟨fun p hp he hle => ?_, fun hbad => ?_⟩⟩
  · have htaken : takenInRun s.mode = false := Bool.eq_false_iff.mpr (mt takenInRun_iff.mp hmode)
    rw [exec_setLevel, request_mode _ _ _ _ hfree htaken]
  · have hport : enabledPort (idleFill s) (byteAt [byte code, byte level] 0) = some p := by
      rw [hb0]
      exact enabledPort_eq_some (s := s) hp he
    rw [exec_setLevel_run hfree hmode, setLevelWork_sets hport (hb1.trans_le hle), hb1, respond_setPortLevel]
  · have hrefused : enabledPort (idleFill s) (byteAt [byte code, byte level] 0) = none
        ∨ 15 < byteAt [byte code, byte level] 1 := by
      rw [hb0, hb1]
      exact (or_assoc.mpr hbad).imp_left (enabledPort_eq_none_iff (s := s)).mpr
    rw [exec_setLevel_run hfree hmode, setLevelWork_refuses hrefused, respond_refuse]

/-! ### Contacts that read made (R101, R129) -/

theorem anyMade_iff {c : ConsolePort} {f : SlotEntry → Nat → Bool} :
    anyMade c f = true ↔ ∃ i b, i < c.entry.dataSlots ∧ b < 16 ∧ mappedBy (slotAt c i) b = true
      ∧ f (slotAt c i) b = true ∧ (imageAt c i).getLsbD b = true := by
  simp only [anyMade, slotMade, mapped, List.any_eq_true, List.mem_range, Bool.and_eq_true, decide_eq_true_eq]
  constructor
  · rintro ⟨i, hi, b, hb, ⟨⟨-, hmapped⟩, hf⟩, himage⟩
    exact ⟨i, b, hi, hb, hmapped, hf, himage⟩
  · rintro ⟨i, b, hi, hb, hmapped, hf, himage⟩
    exact ⟨i, hi, b, hb, ⟨⟨hi, hmapped⟩, hf⟩, himage⟩

theorem isPiston_iff {code : Nat} {e : SlotEntry} {b : Nat} :
    isPiston code e b = true ↔ e.kind = .pistons ∧ e.first + b = code := by
  simp only [isPiston, Bool.and_eq_true, beq_iff_eq]

/-- A contact of a piston code is mapped: the codes end at 63 (R129). -/
theorem mappedBy_of_isPiston {code : Nat} {e : SlotEntry} {b : Nat} (hcode : code ≤ 63)
    (h : isPiston code e b = true) : mappedBy e b = true := by
  obtain ⟨hkind, hsum⟩ := isPiston_iff.mp h
  simp only [mappedBy, hkind, hsum, hcode, decide_true]

theorem setMade_iff {c : ConsolePort} : setMade c = true ↔ SetReadsMade c := by
  rw [setMade, anyMade_iff]
  constructor
  · rintro ⟨i, b, hi, hb, -, hpiston, himage⟩
    obtain ⟨hkind, hsum⟩ := isPiston_iff.mp hpiston
    exact ⟨i, b, hi, hb, hkind, hsum, himage⟩
  · rintro ⟨i, b, hi, hb, hkind, hsum, himage⟩
    have hpiston := isPiston_iff.mpr ⟨hkind, hsum⟩
    exact ⟨i, b, hi, hb, mappedBy_of_isPiston (by decide) hpiston, hpiston, himage⟩

/-! ### Piston makes (R101) -/

theorem isCancel_iff {code : Nat} : isCancel code = true ↔ 41 ≤ code ∧ code ≤ 46 := by
  simp only [isCancel, within, Bool.and_eq_true, decide_eq_true_eq]

section PistonMake

variable {s : State} {p : PortId} {code : Nat}

theorem pistonMake_captures (hcode : code ≤ 39) (hset : SetReadsMade (portAt s p)) :
    pistonMake s p code = capture s p code := by
  simp only [pistonMake, hcode, setMade_iff.mpr hset, decide_true, Bool.and_self, if_true]

theorem pistonMake_acts (h : 39 < code ∨ ¬ SetReadsMade (portAt s p)) :
    pistonMake s p code = (pistonAction s p code).1 := by
  rw [← setMade_iff] at h
  rw [pistonMake, if_neg]
  rw [Bool.and_eq_true, decide_eq_true_eq]
  rintro ⟨hcode, hset⟩
  exact h.elim (fun hlt => absurd hcode hlt.not_ge) (fun hunset => hunset hset)

theorem pistonAction_recalls (h : code ≤ 39 ∨ (41 ≤ code ∧ code ≤ 46)) :
    pistonAction s p code = recallPress s p code := by
  rw [← isCancel_iff, ← decide_eq_true_iff (p := code ≤ 39), ← Bool.or_eq_true] at h
  rw [pistonAction, if_pos h]

/-- A code that is neither a combination's nor a cancel's moves the level or does nothing (R101, R102). -/
theorem pistonAction_other (hcode : 39 < code) (hcancel : code < 41 ∨ 46 < code) :
    pistonAction s p code =
      if code = 47 then (levelUp s p, .level) else if code = 48 then (levelDown s p, .level) else (s, .none) := by
  rw [pistonAction, if_neg]
  rw [Bool.or_eq_true, decide_eq_true_eq, isCancel_iff]
  omega

theorem pistonMake_up :
    pistonMake s p 47 = setPort s p { portAt s p with level := min 15 ((portAt s p).level + 1) } := by
  rw [pistonMake_acts (.inl (by decide)), pistonAction_other (by decide) (by decide)]
  rfl

theorem pistonMake_down :
    pistonMake s p 48 = setPort s p { portAt s p with level := (portAt s p).level - 1 } := by
  rw [pistonMake_acts (.inl (by decide)), pistonAction_other (by decide) (by decide)]
  rfl

theorem pistonMake_nothing (h : code = 40 ∨ 49 ≤ code) : pistonMake s p code = s := by
  rw [pistonMake_acts (.inl (by omega)), pistonAction_other (by omega) (by omega), if_neg (by omega),
    if_neg (by omega)]

end PistonMake

/-! ### The record a capture stores (R109) -/

/-- Stop `n` is in the held scope: of a kind other than UNUSED, and of a division held (R105, R109). -/
theorem getLsbD_stopsIn (s : State) (held : List Nat) {n : Nat} (hn : n < 256) :
    (stopsIn s held).getLsbD n =
      decide ((stopAt s n).kind ≠ .unused ∧ (stopAt s n).division ∈ held) := by
  rw [stopsIn, getLsbD_bitsOf, Bool.eq_iff_iff]
  simp [hn]

theorem getLsbD_capturedRecord (s : State) (code : Nat) (held : List Nat) (record : StopSet) {n : Nat}
    (hn : n < 256) :
    (capturedRecord s code held record).getLsbD n =
      if (stopAt s n).kind ≠ .unused ∧ (stopAt s n).division ∈ held then s.drawn.getLsbD n
      else decide (code ≤ 9) && record.getLsbD n := by
  have hscope := getLsbD_stopsIn s held hn
  by_cases hin : (stopAt s n).kind ≠ .unused ∧ (stopAt s n).division ∈ held
  · rw [decide_eq_true hin] at hscope
    rw [if_pos hin, capturedRecord]
    split
    next => simp only [BitVec.getLsbD_or, BitVec.getLsbD_and, BitVec.getLsbD_not, hscope, Bool.not_true, Bool.and_false,
      Bool.and_true, Bool.false_or]
    next => simp only [BitVec.getLsbD_and, hscope, Bool.and_true]
  · rw [decide_eq_false hin] at hscope
    rw [if_neg hin, capturedRecord]
    split
    next hgeneral => simp only [BitVec.getLsbD_or, BitVec.getLsbD_and, BitVec.getLsbD_not, hscope, hn, hgeneral,
      decide_true, Bool.not_false, Bool.and_true, Bool.true_and, Bool.and_false, Bool.or_false]
    next hgeneral => simp only [BitVec.getLsbD_and, hscope, hgeneral, decide_false, Bool.and_false, Bool.false_and]

theorem combinationAt_setCombination_same (s : State) {level code : Nat} (hlevel : level ≤ 15) (hcode : code ≤ 39)
    (x : StopSet) : combinationAt (setCombination s level code x) level code = x :=
  look_put_same _ _ _ (by omega)

/-! ### The dirty list (R113) -/

section DirtyAppend

variable {s : State} {p : PortId} {name : Nat × Nat}

theorem dirtyAppend_of_mem (h : name ∈ s.dirty) : dirtyAppend s p name = s := by
  rw [dirtyAppend, if_pos (List.contains_iff_mem.mpr h)]

theorem dirtyAppend_of_full (h : name ∉ s.dirty) (hfull : 32 ≤ s.dirty.length) :
    dirtyAppend s p name = { s with dirtyOverflow := true } := by
  have hno : ¬ s.dirty.length < Config.maxDirty := hfull.not_gt
  rw [dirtyAppend, if_neg (mt List.contains_iff_mem.mp h), if_neg hno]

theorem dirtyAppend_of_room (h : name ∉ s.dirty) (hroom : s.dirty.length < 32) (hne : s.dirty ≠ []) :
    dirtyAppend s p name = { s with dirty := s.dirty ++ [name] } := by
  have hyes : s.dirty.length < Config.maxDirty := hroom
  rw [dirtyAppend, if_neg (mt List.contains_iff_mem.mp h), if_pos hyes, if_neg (mt List.isEmpty_iff.mp hne)]

theorem dirtyAppend_of_empty (h : s.dirty = []) :
    dirtyAppend s p name = raise { s with dirty := [name] } .combinationChanged (.port p) := by
  simp [dirtyAppend, h, Config.maxDirty]

/-- A new name goes to the tail of a list that is not full. -/
theorem dirtyAppend_appends (h : name ∉ s.dirty) (hroom : s.dirty.length < 32) :
    (dirtyAppend s p name).dirty = s.dirty ++ [name]
      ∧ (dirtyAppend s p name).dirtyOverflow = s.dirtyOverflow := by
  by_cases hempty : s.dirty = []
  · rw [dirtyAppend_of_empty hempty, hempty]
    exact ⟨rfl, rfl⟩
  · rw [dirtyAppend_of_room h hroom hempty]
    exact ⟨rfl, rfl⟩

/-- Only the append to an empty list raises anything. -/
theorem dirtyAppend_frame_of_ne (hne : s.dirty ≠ []) :
    dirtyAppend s p name = { s with
      dirty := (dirtyAppend s p name).dirty, dirtyOverflow := (dirtyAppend s p name).dirtyOverflow } := by
  by_cases hmem : name ∈ s.dirty
  · rw [dirtyAppend_of_mem hmem]
  · rcases lt_or_ge s.dirty.length 32 with hroom | hfull
    · rw [dirtyAppend_of_room hmem hroom hne]
    · rw [dirtyAppend_of_full hmem hfull]

theorem dirtyAppend_frame :
    dirtyAppend s p name = { s with
      dirty := (dirtyAppend s p name).dirty, dirtyOverflow := (dirtyAppend s p name).dirtyOverflow
      pendingCauses := (dirtyAppend s p name).pendingCauses, details := (dirtyAppend s p name).details
      firstCause := (dirtyAppend s p name).firstCause } := by
  by_cases hempty : s.dirty = []
  · rw [dirtyAppend_of_empty hempty]
    rfl
  · rw [dirtyAppend_frame_of_ne hempty]

theorem dirtyAppend_combination : (dirtyAppend s p name).combination = s.combination := by
  rw [dirtyAppend_frame]

end DirtyAppend

/-! ### A capture (R109, R113) -/

section Capture

variable {s : State} {p : PortId} {code : Nat}

theorem capture_ungranted (h : heldScope s p code = []) : capture s p code = bump s (.ungranted p) := by
  rw [capture, if_pos h, ungranted]

/-- The state in which a capture has stored its record and its name has still to enter the dirty list. -/
def recordStored (s : State) (p : PortId) (code : Nat) : State :=
  setCombination s (portAt s p).level code
    (capturedRecord s code (heldScope s p code) (combinationAt s (portAt s p).level code))

theorem capture_held (h : heldScope s p code ≠ []) :
    capture s p code = dirtyAppend (recordStored s p code) p ((portAt s p).level, code) := by
  rw [capture, if_neg h, recordStored]

theorem capture_combination (h : heldScope s p code ≠ []) :
    (capture s p code).combination = (recordStored s p code).combination := by
  rw [capture_held h, dirtyAppend_combination]

theorem combinationAt_capture (h : heldScope s p code ≠ []) (hcode : code ≤ 39) (hlevel : (portAt s p).level ≤ 15) :
    combinationAt (capture s p code) (portAt s p).level code =
      capturedRecord s code (heldScope s p code) (combinationAt s (portAt s p).level code) := by
  rw [combinationAt, capture_combination h]
  exact combinationAt_setCombination_same s hlevel hcode _

theorem capture_frame (h : heldScope s p code ≠ []) :
    capture s p code = { s with
      combination := (capture s p code).combination, dirty := (capture s p code).dirty
      dirtyOverflow := (capture s p code).dirtyOverflow, pendingCauses := (capture s p code).pendingCauses
      details := (capture s p code).details, firstCause := (capture s p code).firstCause } := by
  rw [capture_combination h, capture_held h]
  exact dirtyAppend_frame

theorem capture_frame_of_ne (h : heldScope s p code ≠ []) (hne : s.dirty ≠ []) :
    capture s p code = { s with
      combination := (capture s p code).combination, dirty := (capture s p code).dirty
      dirtyOverflow := (capture s p code).dirtyOverflow } := by
  rw [capture_combination h, capture_held h]
  exact dirtyAppend_frame_of_ne hne

end Capture

/-! ### READ_DIRTY (R114) -/

theorem exec_readDirty (params : List Byte) (s : State) :
    exec (.readDirty params) s = .next (request takenAlways 0 params
      (fun s => ({ s with dirty := [], dirtyOverflow := false }, okWith (dirtyStatus s))) s) := rfl

theorem exec_readDirty_free {s : State} (h : PortFree s) :
    exec (.readDirty []) s = .next { answered s .ok (dirtyStatus s) with dirty := [], dirtyOverflow := false } := by
  have hlength : ([] : List Byte).length = 0 := rfl
  rw [exec_readDirty, request_work _ _ h rfl hlength]
  rfl

/-! ### The statement -/

/-- Settles O27: a piston make by its code and SET, a capture by the record it stores and its name's place in the dirty
list, and READ_DIRTY. -/
theorem capturesEnterTheDirtyListThatAReadEmpties : Obligations.CapturesEnterTheDirtyListThatAReadEmpties := by
  refine ⟨fun s p code _ => ⟨pistonMake_captures, ?unset, ?cancel, ?up, ?down, pistonMake_nothing, capture_ungranted⟩,
    fun s p code hcode hheld hlevel => ?capture, fun s hfree => ⟨_, exec_readDirty_free hfree, rfl⟩⟩
  case unset =>
    intro hcode hset
    rw [pistonMake_acts (.inr hset), pistonAction_recalls (.inl hcode)]
  case cancel =>
    intro hlow hhigh
    rw [pistonMake_acts (.inl (by omega)), pistonAction_recalls (.inr ⟨hlow, hhigh⟩)]
  case up =>
    rintro rfl
    exact pistonMake_up
  case down =>
    rintro rfl
    exact pistonMake_down
  case capture =>
    refine ⟨fun n hn hkind hdivision => ?_, fun n hn hout => ?_, ?_, fun hmem => ?_, fun hnew hroom => ?_,
      fun hnew hfull => ?_, fun hempty => ?_, capture_frame_of_ne hheld, capture_frame hheld⟩
    · rw [combinationAt_capture hheld hcode hlevel, getLsbD_capturedRecord _ _ _ _ hn, if_pos ⟨hkind, hdivision⟩]
    · rw [combinationAt_capture hheld hcode hlevel, getLsbD_capturedRecord _ _ _ _ hn,
        if_neg fun hin => hout.elim hin.1 fun hdivision => hdivision hin.2]
    · rw [combinationAt_capture hheld hcode hlevel, capture_combination hheld, recordStored, setCombination_combination]
    · rw [capture_held hheld, dirtyAppend_of_mem (s := recordStored s p code) hmem]
      exact ⟨rfl, rfl⟩
    · rw [capture_held hheld]
      exact dirtyAppend_appends hnew hroom
    · rw [capture_held hheld, dirtyAppend_of_full (s := recordStored s p code) hnew hfull]
      exact ⟨rfl, rfl⟩
    · rw [capture_held hheld, dirtyAppend_of_empty (s := recordStored s p code) hempty, raise_pendingCauses,
        raise_details]
      exact ⟨(getLsbD_withBit _ _ _ _).trans (if_pos ⟨rfl, by decide⟩), look_put_same _ _ _ (by decide)⟩

end Sys2Proof.Proofs.Pistons
end

section
/-! PROOFS. The Expression unit's stage: the stage of a value by band, its one form over the limits, from which it
rises with the value and stays within the stage count (R121), the new stage by hysteresis (R122), and the statement O50
from these. -/

namespace Sys2Proof.Proofs.Expression

open Sys2Proof.Machine

/-! ### The corrected value (R121) -/

theorem corrected_eq (e : ExprEntry) (raw : Nat) :
    corrected e raw = if raw < e.offset then 0 else raw - e.offset := by
  rw [corrected]
  split
  next hbelow => exact Nat.sub_eq_zero_of_le hbelow.le
  next => rfl

/-! ### The stage of a value (R121) -/

section Stage

variable {e : ExprEntry} {v w : Nat}

theorem stageOf_of_le_low (hv : v ≤ e.low) : stageOf e v = 0 := by
  rw [stageOf, if_pos hv]

theorem stageOf_of_high_le (hlim : e.low < e.high) (hv : e.high ≤ v) : stageOf e v = e.stages := by
  rw [stageOf, if_neg (hlim.trans_le hv).not_ge, if_pos hv]

theorem stageOf_between (hlow : e.low < v) (hhigh : v < e.high) :
    stageOf e v = (v - e.low) * e.stages / (e.high - e.low) := by
  rw [stageOf, if_neg hlow.not_ge, if_neg hhigh.not_ge]

/-- The formula of the band gives the ends too, for the value cut off at the high limit. -/
theorem stageOf_eq_div (hlim : e.low < e.high) (v : Nat) :
    stageOf e v = (min v e.high - e.low) * e.stages / (e.high - e.low) := by
  rcases le_or_gt v e.low with hlow | hlow
  · rw [stageOf_of_le_low hlow, min_eq_left (hlow.trans hlim.le), Nat.sub_eq_zero_of_le hlow, zero_mul, Nat.zero_div]
  · rcases lt_or_ge v e.high with hhigh | hhigh
    · rw [stageOf_between hlow hhigh, min_eq_left hhigh.le]
    · rw [stageOf_of_high_le hlim hhigh, min_eq_right hhigh, Nat.mul_div_cancel_left _ (Nat.sub_pos_of_lt hlim)]

theorem stageOf_mono (hlim : e.low < e.high) (hvw : v ≤ w) : stageOf e v ≤ stageOf e w := by
  rw [stageOf_eq_div hlim, stageOf_eq_div hlim]
  gcongr

/-- No value has a stage above that of a value at or over the high limit. -/
theorem stageOf_le_stages (hlim : e.low < e.high) (v : Nat) : stageOf e v ≤ e.stages :=
  calc
    stageOf e v ≤ stageOf e (max v e.high) := stageOf_mono hlim (le_max_left v e.high)
    _ = e.stages := stageOf_of_high_le hlim (le_max_right v e.high)

end Stage

/-! ### The new stage (R122) -/

section NewStage

variable {e : ExprEntry} {s c : Nat}

theorem newStage_of_eq (h : stageOf e c = s) : newStage e s c = s := by
  rw [newStage, if_pos h]

theorem newStage_of_gt (h : s < stageOf e c) : newStage e s c = max s (stageOf e (c - e.hysteresis)) := by
  rw [newStage, if_neg h.ne', if_pos h]

theorem newStage_of_lt (h : stageOf e c < s) : newStage e s c = min s (stageOf e (c + e.hysteresis)) := by
  rw [newStage, if_neg h.ne, if_neg h.not_gt]

theorem newStage_le_candidate (hlim : e.low < e.high) (h : s < stageOf e c) : newStage e s c ≤ stageOf e c := by
  rw [newStage_of_gt h]
  exact max_le h.le (stageOf_mono hlim (Nat.sub_le c e.hysteresis))

theorem candidate_le_newStage (hlim : e.low < e.high) (h : stageOf e c < s) : stageOf e c ≤ newStage e s c := by
  rw [newStage_of_lt h]
  exact le_min h.le (stageOf_mono hlim (Nat.le_add_right c e.hysteresis))

theorem newStage_of_hysteresis_zero (hhyst : e.hysteresis = 0) (s c : Nat) : newStage e s c = stageOf e c := by
  rcases lt_trichotomy s (stageOf e c) with hrise | heq | hfall
  · rw [newStage_of_gt hrise, hhyst, Nat.sub_zero, max_eq_right hrise.le]
  · rw [newStage_of_eq heq.symm, heq]
  · rw [newStage_of_lt hfall, hhyst, Nat.add_zero, min_eq_right hfall.le]

end NewStage

/-! ### The statement -/

/-- Settles O50: the corrected value, the stage of a value by band and in order, and the new stage by where the
candidate lies. -/
theorem stagesAreBandedWithHysteresis : Obligations.StagesAreBandedWithHysteresis :=
  ⟨corrected_eq,
    fun _ hlim => ⟨fun _ => stageOf_of_le_low, fun _ => stageOf_of_high_le hlim, fun _ => stageOf_between,
      stageOf_le_stages hlim, fun _ _ => stageOf_mono hlim⟩,
    fun _ s c hlim => ⟨newStage_of_eq, fun hrise => ⟨newStage_of_gt hrise, newStage_le_candidate hlim hrise⟩,
      fun hfall => ⟨newStage_of_lt hfall, candidate_le_newStage hlim hfall⟩,
      fun hhyst => newStage_of_hysteresis_zero hhyst s c⟩⟩

end Sys2Proof.Proofs.Expression
end

section
/-! PROOFS. The loss of an ONLINE port (R139): which claims a release request leaves (R27), which counters it leaves
(it counts deferrals alone, R70), the port as steps 1 and 2 of the loss leave it with all that the loss keeps, and the statement
O34 from these. -/

namespace Sys2Proof.Proofs.PortLoss

open Sys2Proof.Machine

/-! ### The claims a release request leaves (R27) -/

theorem holdsClaim_of_sameDemands {s t : State} (h : SameDemands s t) {c : Claim} (hc : HoldsClaim t c) :
    HoldsClaim s c := by
  obtain ⟨i, r, hr, hmem⟩ := hc
  have hdemand : (recordAt s i).map Record.demand = some r.demand := by rw [← h i, hr, Option.map_some]
  obtain ⟨q, hq, hsame⟩ := Option.map_eq_some_iff.mp hdemand
  have hclaims : q.claims = r.claims := congrArg (fun x => x.2.2.2) hsame
  exact ⟨i, q, hq, hclaims ▸ hmem⟩

theorem holdsClaim_iff_of_sameDemands {s t : State} (h : SameDemands s t) (c : Claim) :
    HoldsClaim t c ↔ HoldsClaim s c :=
  ⟨holdsClaim_of_sameDemands h, holdsClaim_of_sameDemands fun i => (h i).symm⟩

theorem claims_afterLastRelease {s : State} {r x : Record} (h : afterLastRelease s r = some x) : x.claims = [] := by
  unfold afterLastRelease at h
  cases hst : r.state <;> rw [hst] at h <;> dsimp only at h
  case waiting | struck => cases h
  case striking | settling => rw [← Option.some.inj h]
  all_goals
    split at h
    · cases h
    · rw [← Option.some.inj h]

/-- A visited record keeps exactly the claims that do not match: a last release takes a list all of which matches. -/
theorem mem_claims_visited (hit : Nat → Claim → Bool) (s : State) (i : Nat) (r : Record) (c : Claim) :
    (∃ x, (if losesLast hit i r then afterLastRelease s r
        else some { r with claims := r.claims.filter fun c => !hit i c }) = some x ∧ c ∈ x.claims)
      ↔ c ∈ r.claims ∧ hit i c = false := by
  cases hl : losesLast hit i r with
  | true =>
    rw [if_pos rfl]
    constructor
    · rintro ⟨x, hx, hmem⟩
      rw [claims_afterLastRelease hx] at hmem
      exact absurd hmem List.not_mem_nil
    · rintro ⟨hmem, hmiss⟩
      rw [losesLast, Bool.and_eq_true, List.all_eq_true] at hl
      exact absurd (hl.2 c hmem) (Bool.eq_false_iff.mp hmiss)
  | false =>
    rw [if_neg Bool.false_ne_true]
    simp [List.mem_filter]

theorem holdsClaim_iff_of_visitedBy {hit : Nat → Claim → Bool} {s u : State} (h : VisitedBy hit s u) (c : Claim) :
    HoldsClaim u c ↔ ∃ i r, recordAt s i = some r ∧ c ∈ r.claims ∧ hit i c = false := by
  obtain ⟨-, -, hrecord, -⟩ := h
  refine exists_congr fun i => ?_
  simp only [hrecord]
  cases hr : recordAt s i with
  | none => simp
  | some r => simpa only [Option.bind_some, Option.some.injEq, exists_eq_left'] using mem_claims_visited hit s i r c

/-- A release request leaves exactly the claims that its pattern does not match; the allocator's work moves none. -/
theorem holdsClaim_iff_of_releasedBy {hit : Nat → Claim → Bool} {s t : State} (h : ReleasedBy hit s t) (c : Claim) :
    HoldsClaim t c ↔ ∃ i r, recordAt s i = some r ∧ c ∈ r.claims ∧ hit i c = false := by
  obtain ⟨u, w, hvisits, hwork, htable, -, -⟩ := h
  have hsame : SameDemands u w := by
    rw [hwork]
    refine SameDemands.foldl (fun v k => ?_) _ u
    split
    · exact sameDemands_allocatorWork v k
    · exact SameDemands.refl v
  have hrecord : ∀ i, recordAt t i = recordAt w i := fun i => by rw [recordAt, htable, recordAt]
  rw [← holdsClaim_iff_of_visitedBy hvisits, ← holdsClaim_iff_of_sameDemands hsame]
  simp only [HoldsClaim, hrecord]

/-! ### The counters a release request leaves (R70, R173) -/

/-- A pass admits and never defers, so that it counts nothing. -/
theorem counterAt_headPass (c : Counter) (k fuel : Nat) (s : State) :
    counterAt (headPass k fuel s) c = counterAt s c := by
  induction fuel generalizing s with
  | zero => rfl
  | succ fuel ih =>
    unfold headPass
    split
    · rfl
    · split
      · rfl
      · split
        · exact ih _
        · rfl

section Counters

variable {c : Counter} (hc : Counter.place c ≠ Counter.place .deferredAdmissions)

include hc

theorem counterAt_admissionRequest (s : State) (i : Nat) : counterAt (admissionRequest s i) c = counterAt s c := by
  unfold admissionRequest
  split
  · rfl
  · split
    · rfl
    · exact look_put_ne _ _ _ hc.symm

theorem counterAt_resumeAt (k : Nat) (s : State) (i : Nat) : counterAt (resumeAt k s i) c = counterAt s c := by
  unfold resumeAt
  split
  · rfl
  · split
    · exact counterAt_admissionRequest hc _ i
    · rfl

theorem counterAt_resumption (s : State) (k : Nat) : counterAt (resumption s k) c = counterAt s c :=
  List.foldlRecOn (motive := fun v => counterAt v c = counterAt s c) _ _ rfl
    fun v hv i _ => (counterAt_resumeAt hc k v i).trans hv

/-- The allocator's work counts deferrals and nothing else. -/
theorem counterAt_allocatorWork (s : State) (k : Nat) : counterAt (allocatorWork s k) c = counterAt s c := by
  unfold allocatorWork
  dsimp only
  split
  · rw [counterAt_resumption hc, counterAt_headPass]
    rfl
  · rw [counterAt_headPass]
    rfl

theorem counterAt_of_releasedBy {hit : Nat → Claim → Bool} {s t : State} (h : ReleasedBy hit s t) :
    counterAt t c = counterAt s c := by
  obtain ⟨u, w, ⟨-, hvisits, -, -⟩, hwork, -, -, hcounters⟩ := h
  have hw : counterAt w c = counterAt u c := by
    rw [hwork]
    refine List.foldlRecOn (motive := fun v => counterAt v c = counterAt u c) _ _ rfl fun v hv k _ => ?_
    split
    · exact (counterAt_allocatorWork hc v k).trans hv
    · exact hv
  rw [counterAt, hcounters, ← counterAt, hw, counterAt, hvisits, ← counterAt]

end Counters

/-! ### What the sounding table's frame keeps -/

theorem portAt_of_tableFrame {s t : State} (h : TableFrame s t) (p : PortId) : portAt t p = portAt s p := by
  rw [h]
  cases p <;> rfl

theorem registration_of_tableFrame {s t : State} (h : TableFrame s t) :
    t.drawn = s.drawn ∧ t.grants = s.grants ∧ t.runs = s.runs ∧ t.tremulants = s.tremulants
      ∧ crescendoStage t = crescendoStage s := by
  rw [h]
  exact ⟨rfl, rfl, rfl, rfl, rfl⟩

/-! ### The loss (R139) -/

/-- A port as steps 1 and 2 of its loss leave it: LOST, its image cleared and its recall slot cancelled (R108). -/
def lostPort (c : ConsolePort) : ConsolePort :=
  { clearedImage c with state := .lost, watchdog := none, overtaken := false, recallSlot := RecallSlot.idle }

/-- The state in which a port is LOST, with its claims still held and nothing raised. -/
def portTakenLost (s : State) (p : PortId) : State :=
  setPort s p (lostPort (portAt s p))

theorem losePort_eq (s : State) (p : PortId) :
    losePort s p = raise (releaseRequest (portTakenLost s p) (.port p)) .portLost (.port p) := by
  cases p <;> rfl

theorem exec_watchdogExpiry {s : State} {p : PortId} {w : Nat} (honline : (portAt s p).state = .online)
    (hruns : (portAt s p).watchdog = some w) (htaken : (portAt s p).overtaken = false) :
    exec (.watchdogExpiry p) s = .next (losePort s p) := by
  have hmeaning : exec (.watchdogExpiry p) s = execWatchdogExpiry p s := rfl
  rw [hmeaning, execWatchdogExpiry]
  simp [honline, hruns, htaken]

theorem tableFrame_losePort (s : State) (p : PortId) : TableFrame (portTakenLost s p) (losePort s p) := by
  rw [losePort_eq]
  exact ((evolves_releaseRequest _ _).thenRaise _ _).frame

theorem portAt_losePort (s : State) (p : PortId) : portAt (losePort s p) p = lostPort (portAt s p) := by
  rw [portAt_of_tableFrame (tableFrame_losePort s p), portTakenLost, portAt_setPort_same]

theorem registration_losePort (s : State) (p : PortId) :
    (losePort s p).drawn = s.drawn ∧ (losePort s p).grants = s.grants ∧ (losePort s p).runs = s.runs
      ∧ (losePort s p).tremulants = s.tremulants ∧ crescendoStage (losePort s p) = crescendoStage s := by
  obtain ⟨hdrawn, hgrants, hruns, htremulants, hstage⟩ := registration_of_tableFrame (tableFrame_losePort s p)
  have hport : crescendoStage (portTakenLost s p) = crescendoStage s := by cases p <;> rfl
  exact ⟨hdrawn.trans (setPort_drawn ..), hgrants.trans (setPort_grants ..), hruns.trans (setPort_runs ..),
    htremulants.trans (setPort_tremulants ..), hstage.trans hport⟩

/-- Steps 3 and 4 release the port's claims: neither the port nor attention bears on a release request. -/
theorem releasedBy_losePort (s : State) (p : PortId) : ReleasedBy (fun _ c => c.port == p) s (losePort s p) := by
  have hreleased := releasedBy_releaseRequest (portTakenLost s p) (.port p)
  rw [losePort_eq]
  cases p <;> exact hreleased

theorem holdsClaim_losePort_iff (s : State) (p : PortId) (c : Claim) :
    HoldsClaim (losePort s p) c ↔ HoldsClaim s c ∧ c.port ≠ p := by
  rw [holdsClaim_iff_of_releasedBy (releasedBy_losePort s p)]
  simp only [HoldsClaim, beq_eq_false_iff_ne, ← and_assoc, exists_and_right]

theorem pendingCauses_losePort (s : State) (p : PortId) : (losePort s p).pendingCauses.getLsbD 2 = true := by
  rw [losePort_eq, raise_pendingCauses]
  exact (getLsbD_withBit _ _ _ _).trans (if_pos ⟨rfl, by decide⟩)

theorem details_losePort (s : State) (p : PortId) : look (losePort s p).details 2 .none = .port p := by
  rw [losePort_eq, raise_details]
  exact look_put_same _ _ _ (by decide)

theorem counterAt_losePort {c : Counter} (hc : Counter.place c ≠ Counter.place .deferredAdmissions) (s : State)
    (p : PortId) : counterAt (losePort s p) c = counterAt s c :=
  counterAt_of_releasedBy hc (releasedBy_losePort s p)

/-! ### The statement -/

/-- Settles O34: the port by the form of the loss, its claims by what a release request leaves, PORT_LOST by the raise,
and all that is kept by the frame of the sounding table. -/
theorem watchdogExpiryLosesThePort : Obligations.WatchdogExpiryLosesThePort := by
  intro s p w honline hruns htaken
  obtain ⟨hdrawn, hgrants, hrunStates, htremulants, hstage⟩ := registration_losePort s p
  refine ⟨losePort s p, exec_watchdogExpiry honline hruns htaken, ?_⟩
  rw [portAt_losePort]
  refine ⟨rfl, rfl, rfl, rfl, rfl, rfl, rfl, releasedBy_losePort s p, holdsClaim_losePort_iff s p,
    pendingCauses_losePort s p, details_losePort s p, hdrawn, hgrants, hrunStates, htremulants, hstage, rfl, rfl, rfl,
    counterAt_losePort (by decide) s p, fun q => ?portCounters⟩
  case portCounters =>
    cases q <;>
      exact ⟨counterAt_losePort (by decide) s p, counterAt_losePort (by decide) s p,
        counterAt_losePort (by decide) s p, counterAt_losePort (by decide) s p⟩

end Sys2Proof.Proofs.PortLoss
end

section
/-! PROOFS. The fault set's requests: what CLEAR_FAULT of one outlet comes to by its number and by the set (R156),
CLEAR_FAULT of all, the search of NEXT_FAULT in an ascending set (R157), and the statement O28 from these. -/

namespace Sys2Proof.Proofs.FaultSet

open Sys2Proof.Machine

/-- A request's two-byte number is read back as it was sent (R177). -/
theorem wordAt_bytes2 {n : Nat} (h : n < 65536) : wordAt (bytes2 n) 0 = n := by
  have hhigh : byteAt (bytes2 n) 0 = n / 256 := toNat_byte (by omega)
  have hlow : byteAt (bytes2 n) 1 = n % 256 := BitVec.toNat_ofNat n 8
  rw [wordAt, hhigh, hlow]
  omega

/-! ### CLEAR_FAULT (R156) -/

theorem exec_clearFaultOne (params : List Byte) (s : State) :
    exec (.clearFaultOne params) s = .next (request takenPlaying 2 params (clearFaultOneWork params) s) := rfl

theorem exec_clearFaultAll (params : List Byte) (s : State) :
    exec (.clearFaultAll params) s = .next (request takenPlaying 0 params
      (fun s => ({ s with faults := [] }, okWith (bytes2 s.faults.length))) s) := rfl

theorem validOutlet_iff {n : Nat} : validOutlet n = true ↔ n ≤ 4095 ∧ n % 1024 < 768 := by
  rw [validOutlet, Bool.and_eq_true, decide_eq_true_iff, decide_eq_true_iff]

theorem validOutlet_eq_false_iff {n : Nat} : validOutlet n = false ↔ 4095 < n ∨ 768 ≤ n % 1024 := by
  rw [← Bool.not_eq_true, validOutlet_iff]
  omega

section ClearOne

variable {params : List Byte} {s : State} {n : Nat} (hword : wordAt params 0 = n)

include hword

theorem clearFaultOneWork_range (h : 4095 < n ∨ 768 ≤ n % 1024) : clearFaultOneWork params s = refuse s .range := by
  have hinvalid : validOutlet n = false := validOutlet_eq_false_iff.mpr h
  simp only [clearFaultOneWork, hword, hinvalid, if_true]

theorem clearFaultOneWork_notFound (hle : n ≤ 4095) (hpos : n % 1024 < 768) (h : n ∉ s.faults) :
    clearFaultOneWork params s = refuse s .notFound := by
  have hvalid : validOutlet n = true := validOutlet_iff.mpr ⟨hle, hpos⟩
  have hcontains : s.faults.contains n = false := by
    rwa [← Bool.not_eq_true, List.contains_iff_mem]
  simp only [clearFaultOneWork, hword, hvalid, hcontains, Bool.true_eq_false, if_false, if_true]

theorem clearFaultOneWork_removes (hle : n ≤ 4095) (hpos : n % 1024 < 768) (h : n ∈ s.faults) :
    clearFaultOneWork params s = ({ s with faults := s.faults.filter fun m => m != n }, okWith []) := by
  have hvalid : validOutlet n = true := validOutlet_iff.mpr ⟨hle, hpos⟩
  have hcontains : s.faults.contains n = true := List.contains_iff_mem.mpr h
  simp only [clearFaultOneWork, hword, hvalid, hcontains, Bool.true_eq_false, if_false]

end ClearOne

section ClearFree

variable {s : State} (hfree : PortFree s) (hmode : s.mode ≠ .quiescing)

include hfree hmode

theorem exec_clearFaultOne_free (n : Nat) :
    exec (.clearFaultOne (bytes2 n)) s = .next (respond (clearFaultOneWork (bytes2 n) (idleFill s))) := by
  have hlength : (bytes2 n).length = 2 := rfl
  rw [exec_clearFaultOne, request_work _ _ hfree (takenPlaying_of_ne hmode) hlength]

theorem exec_clearFaultAll_free :
    exec (.clearFaultAll []) s = .next { answered s .ok (bytes2 s.faults.length) with faults := [] } := by
  have hlength : ([] : List Byte).length = 0 := rfl
  rw [exec_clearFaultAll, request_work _ _ hfree (takenPlaying_of_ne hmode) hlength]
  rfl

end ClearFree

/-! ### NEXT_FAULT (R157) -/

theorem exec_nextFault (params : List Byte) (s : State) :
    exec (.nextFault params) s = .next (request takenAlways 2 params (nextFaultWork params) s) := rfl

theorem exec_nextFault_free {s : State} (hfree : PortFree s) (n : Nat) :
    exec (.nextFault (bytes2 n)) s = .next (respond (nextFaultWork (bytes2 n) (idleFill s))) := by
  have hlength : (bytes2 n).length = 2 := rfl
  rw [exec_nextFault, request_work _ _ hfree rfl hlength]

/-- In an ascending list the first member at or above a start is the least one. -/
theorem find?_ge_of_least {l : List Nat} (hasc : l.Pairwise (fun a b => a < b)) {n m : Nat} (hmem : m ∈ l)
    (hm : n ≤ m) (hleast : ∀ k, k ∈ l → n ≤ k → m ≤ k) : (l.find? fun k => decide (n ≤ k)) = some m := by
  induction hasc with
  | nil => exact absurd hmem List.not_mem_nil
  | @cons a l habove _ ih =>
    by_cases ha : n ≤ a
    · have hma : m ≤ a := hleast a List.mem_cons_self ha
      have ham : m = a := (List.mem_cons.mp hmem).resolve_right fun hin => (habove m hin).not_ge hma
      rw [List.find?_cons_of_pos (by rwa [decide_eq_true_iff]), ham]
    · have hin : m ∈ l := (List.mem_cons.mp hmem).resolve_left fun h => ha (h ▸ hm)
      rw [List.find?_cons_of_neg (by rwa [decide_eq_true_iff])]
      exact ih hin fun k hk => hleast k (List.mem_cons_of_mem a hk)

section NextWork

variable {params : List Byte} {s : State} {n : Nat} (hword : wordAt params 0 = n)

include hword

theorem nextFaultWork_range (h : 4095 < n) : nextFaultWork params s = refuse s .range := by
  rw [nextFaultWork, hword, if_pos h]

theorem nextFaultWork_notFound (hstart : n ≤ 4095) (h : ∀ m, m ∈ s.faults → m < n) :
    nextFaultWork params s = refuse s .notFound := by
  have hnone : (s.faults.find? fun k => decide (n ≤ k)) = none := by
    rw [List.find?_eq_none]
    intro m hm
    rw [decide_eq_true_iff]
    exact (h m hm).not_ge
  simp only [nextFaultWork, hword, if_neg hstart.not_gt, hnone]

theorem nextFaultWork_finds (hstart : n ≤ 4095) (hasc : s.faults.Pairwise (fun a b => a < b)) {m : Nat}
    (hmem : m ∈ s.faults) (hm : n ≤ m) (hleast : ∀ k, k ∈ s.faults → n ≤ k → m ≤ k) :
    nextFaultWork params s = (s, okWith (bytes2 m)) := by
  simp only [nextFaultWork, hword, if_neg hstart.not_gt, find?_ge_of_least hasc hmem hm hleast]

end NextWork

/-! ### The statement -/

/-- Settles O28: CLEAR_FAULT of one outlet by the number and its place in the set, CLEAR_FAULT of all, and NEXT_FAULT by
the least member at or above the start. -/
theorem faultSetRequestsReadAndClear : Obligations.FaultSetRequestsReadAndClear := by
  refine ⟨fun s n hfree hmode hn => ?clear, fun s n hfree hasc => ?next⟩
  case clear =>
    have hword := wordAt_bytes2 hn
    rw [exec_clearFaultOne_free hfree hmode]
    refine ⟨fun hbad => ?_, fun hle hpos hout => ?_, fun hle hpos hin => ?_, exec_clearFaultAll_free hfree hmode⟩
    · rw [clearFaultOneWork_range hword hbad, respond_refuse]
    · rw [clearFaultOneWork_notFound (s := idleFill s) hword hle hpos hout, respond_refuse]
    · rw [clearFaultOneWork_removes (s := idleFill s) hword hle hpos hin]
      exact ⟨_, rfl, rfl, fun m => List.mem_filter.trans (and_congr_right fun _ => bne_iff_ne)⟩
  case next =>
    rw [exec_nextFault_free hfree]
    refine ⟨fun hbeyond hn => ?_, fun hle hbelow => ?_, fun m hle hmem hm hleast => ?_⟩
    · rw [nextFaultWork_range (wordAt_bytes2 hn) hbeyond, respond_refuse]
    · have hword : wordAt (bytes2 n) 0 = n := wordAt_bytes2 (by omega)
      rw [nextFaultWork_notFound (s := idleFill s) hword hle hbelow, respond_refuse]
    · have hword : wordAt (bytes2 n) 0 = n := wordAt_bytes2 (by omega)
      rw [nextFaultWork_finds (s := idleFill s) hword hle hasc hmem hm hleast, respond_ok]

end Sys2Proof.Proofs.FaultSet
end

section
/-! PROOFS. The service port's requests: what each arm answers (never MODE for a reason of its own), the row of the
table of R163 behind each request, what a request comes to when the port is free and while a response is outstanding
(R161 to R163), what a fetch clocks out (R160), and the statements O3, O6 and O4 from these. -/

namespace Sys2Proof.Proofs.ServicePort

open Sys2Proof.Machine

/-! ### The statuses a request's own work answers (R162)

MODE is the mode table's answer alone: no check that a request makes of its own, in any table or record, gives it. -/

theorem okWith_ne_mode (payload : List Byte) : (okWith payload).status ≠ .mode := Status.noConfusion

theorem withStatus_range_ne_mode : (withStatus .range).status ≠ .mode := by decide

theorem refuse_range_ne_mode (s : State) : (refuse s .range).2.status ≠ .mode := withStatus_range_ne_mode

theorem refuse_notFound_ne_mode (s : State) : (refuse s .notFound).2.status ≠ .mode := Status.noConfusion

/-- A check for RANGE in front of a work adds no MODE to it. -/
theorem rangeGuard_ne_mode {c : Prop} [Decidable c] {s : State} {x : State × Response} (hx : x.2.status ≠ .mode) :
    (if c then refuse s .range else x).2.status ≠ .mode := by
  split
  · exact refuse_range_ne_mode s
  · exact hx

theorem entryAnswer_ne_mode (inTable : Bool) (entry : List Byte) : (entryAnswer inTable entry).status ≠ .mode := by
  cases inTable
  · exact withStatus_range_ne_mode
  · exact okWith_ne_mode entry

theorem portAnswer_ne_mode (s : State) (code : Nat) (inTable : Bool) (entry : ConsolePort → List Byte) :
    (portAnswer s code inTable entry).status ≠ .mode := by
  unfold portAnswer
  split
  · exact withStatus_range_ne_mode
  · exact entryAnswer_ne_mode _ _

theorem readEntry_ne_mode (s : State) (table i j : Nat) : (readEntry s table i j).status ≠ .mode := by
  unfold readEntry
  split
  case h_3 | h_4 | h_5 => exact portAnswer_ne_mode _ _ _ _
  case h_13 => exact withStatus_range_ne_mode
  all_goals exact entryAnswer_ne_mode _ _

theorem rankFault_ne_mode (s : State) (r : Nat) (e : RankEntry) : rankFault s r e ≠ some .mode := by
  unfold rankFault
  split_ifs <;> decide

theorem exprFault_ne_mode (s : State) (n : Nat) (e : ExprEntry) : exprFault s n e ≠ some .mode := by
  unfold exprFault
  split_ifs <;> decide

theorem namedRecord_ne_mode (s : State) (rank pipe : Nat) : namedRecord s rank pipe ≠ .error .mode := by
  unfold namedRecord
  split
  · simp
  · split
    · simp
    · split <;> simp

section Work

variable (params : List Byte) (s : State)

theorem tableReadWork_ne_mode : (tableReadWork params s).2.status ≠ .mode :=
  rangeGuard_ne_mode (readEntry_ne_mode s _ _ _)

theorem writeRankWork_ne_mode : (writeRankWork params s).2.status ≠ .mode := by
  refine rangeGuard_ne_mode ?_
  split
  · exact refuse_range_ne_mode s
  · split
    next st hst => exact fun h => rankFault_ne_mode _ _ _ (hst.trans (congrArg some h))
    next => exact okWith_ne_mode []

theorem writeStopWork_ne_mode : (writeStopWork params s).2.status ≠ .mode := by
  unfold writeStopWork
  split
  · exact refuse_range_ne_mode s
  · exact okWith_ne_mode []

theorem writeSlotMapWork_ne_mode : (writeSlotMapWork params s).2.status ≠ .mode := by
  unfold writeSlotMapWork
  split
  · exact rangeGuard_ne_mode (okWith_ne_mode [])
  · exact refuse_range_ne_mode s

theorem writeReturnMapWork_ne_mode : (writeReturnMapWork params s).2.status ≠ .mode := by
  unfold writeReturnMapWork
  split
  · exact rangeGuard_ne_mode (okWith_ne_mode [])
  · exact refuse_range_ne_mode s

theorem writePortWork_ne_mode : (writePortWork params s).2.status ≠ .mode := by
  unfold writePortWork
  split
  · exact okWith_ne_mode []
  · exact refuse_range_ne_mode s

theorem writeLinkWork_ne_mode : (writeLinkWork params s).2.status ≠ .mode := by
  unfold writeLinkWork
  dsimp only
  split
  · exact refuse_range_ne_mode s
  · exact rangeGuard_ne_mode (okWith_ne_mode [])

theorem writeRailWork_ne_mode : (writeRailWork params s).2.status ≠ .mode := by
  unfold writeRailWork
  dsimp only
  split
  · exact refuse_range_ne_mode s
  · exact rangeGuard_ne_mode (okWith_ne_mode [])

theorem writeMuteWork_ne_mode : (writeMuteWork params s).2.status ≠ .mode := by
  unfold writeMuteWork
  dsimp only
  split
  · exact refuse_range_ne_mode s
  · exact rangeGuard_ne_mode (okWith_ne_mode [])

theorem writeGrantWork_ne_mode : (writeGrantWork params s).2.status ≠ .mode := by
  unfold writeGrantWork
  dsimp only
  split
  · exact refuse_range_ne_mode s
  · exact rangeGuard_ne_mode (okWith_ne_mode [])

theorem writeCombinationWork_ne_mode : (writeCombinationWork params s).2.status ≠ .mode :=
  rangeGuard_ne_mode (okWith_ne_mode [])

theorem writeCrescendoWork_ne_mode : (writeCrescendoWork params s).2.status ≠ .mode :=
  rangeGuard_ne_mode (okWith_ne_mode [])

theorem writeExpressionWork_ne_mode : (writeExpressionWork params s).2.status ≠ .mode := by
  refine rangeGuard_ne_mode ?_
  split
  · exact refuse_range_ne_mode s
  · split
    next st hst => exact fun h => exprFault_ne_mode _ _ _ (hst.trans (congrArg some h))
    next => exact okWith_ne_mode []

theorem startWork_ne_mode : (startWork s).2.status ≠ .mode := by
  unfold startWork
  split
  · simp
  · exact okWith_ne_mode []

theorem recallWork_ne_mode : (recallWork params s).2.status ≠ .mode := by
  unfold recallWork
  split
  · exact refuse_range_ne_mode s
  · exact rangeGuard_ne_mode (okWith_ne_mode _)

theorem setLevelWork_ne_mode : (setLevelWork params s).2.status ≠ .mode := by
  unfold setLevelWork
  split
  · exact refuse_range_ne_mode s
  · exact rangeGuard_ne_mode (okWith_ne_mode [])

theorem lookupWork_ne_mode : (lookupWork params s).2.status ≠ .mode := by
  unfold lookupWork
  split
  next st hst => exact fun h => namedRecord_ne_mode _ _ _ (hst.trans (congrArg Except.error h))
  next => exact okWith_ne_mode _

theorem silenceWork_ne_mode : (silenceWork params s).2.status ≠ .mode := by
  unfold silenceWork
  split
  next st hst => exact fun h => namedRecord_ne_mode _ _ _ (hst.trans (congrArg Except.error h))
  next => exact okWith_ne_mode _

theorem nextRecordWork_ne_mode : (nextRecordWork params s).2.status ≠ .mode := by
  refine rangeGuard_ne_mode ?_
  split
  · exact refuse_notFound_ne_mode s
  · split
    · exact refuse_notFound_ne_mode s
    · exact okWith_ne_mode _

theorem clearAttentionWork_ne_mode : (clearAttentionWork params s).2.status ≠ .mode := by
  unfold clearAttentionWork
  split
  · exact refuse_range_ne_mode s
  · exact okWith_ne_mode _

theorem writeAttentionEnableWork_ne_mode : (writeAttentionEnableWork params s).2.status ≠ .mode := by
  unfold writeAttentionEnableWork
  split
  · exact refuse_range_ne_mode s
  · exact okWith_ne_mode _

theorem clearFaultOneWork_ne_mode : (clearFaultOneWork params s).2.status ≠ .mode := by
  refine rangeGuard_ne_mode ?_
  split
  · exact refuse_notFound_ne_mode s
  · exact okWith_ne_mode []

theorem nextFaultWork_ne_mode : (nextFaultWork params s).2.status ≠ .mode := by
  refine rangeGuard_ne_mode ?_
  split
  · exact refuse_notFound_ne_mode s
  · exact okWith_ne_mode _

end Work

/-! ### The row behind each request (R163, R177) -/

/-- What the arm of a request hands to `request`: the modes that take it, the length of its parameters, the parameters
themselves, and its work, whose answer is never MODE. -/
structure RequestRow where
  taken : Mode → Bool
  length : Nat
  params : List Byte
  work : State → State × Response
  work_ne_mode : ∀ s, (work s).2.status ≠ .mode

/-- The row of a request of R163; none for every other command. `exec_of_requestRow` ties it to the model. -/
def requestRow : Instr → Option RequestRow
  | .tableRead p => some ⟨takenAlways, p.length, p, tableReadWork p, tableReadWork_ne_mode p⟩
  | .tableWriteRank p => some ⟨takenPlaying, 18, p, writeRankWork p, writeRankWork_ne_mode p⟩
  | .tableWriteStop p => some ⟨takenPlaying, 10, p, writeStopWork p, writeStopWork_ne_mode p⟩
  | .tableWriteSlotMap p => some ⟨takenInConfig, 7, p, writeSlotMapWork p, writeSlotMapWork_ne_mode p⟩
  | .tableWriteReturnMap p => some ⟨takenInConfig, 4, p, writeReturnMapWork p, writeReturnMapWork_ne_mode p⟩
  | .tableWritePort p => some ⟨takenInConfig, 8, p, writePortWork p, writePortWork_ne_mode p⟩
  | .tableWriteLink p => some ⟨takenInConfig, 9, p, writeLinkWork p, writeLinkWork_ne_mode p⟩
  | .tableWriteRail p => some ⟨takenInConfig, 8, p, writeRailWork p, writeRailWork_ne_mode p⟩
  | .tableWriteGrant p => some ⟨takenPlaying, 2, p, writeGrantWork p, writeGrantWork_ne_mode p⟩
  | .tableWriteCombination p => some ⟨takenPlaying, 34, p, writeCombinationWork p, writeCombinationWork_ne_mode p⟩
  | .tableWriteCrescendo p => some ⟨takenPlaying, 33, p, writeCrescendoWork p, writeCrescendoWork_ne_mode p⟩
  | .tableWriteExpression p => some ⟨takenPlaying, 18, p, writeExpressionWork p, writeExpressionWork_ne_mode p⟩
  | .tableWriteMute p => some ⟨takenPlaying, 6, p, writeMuteWork p, writeMuteWork_ne_mode p⟩
  | .start p => some ⟨takenInConfig, 0, p, startWork, startWork_ne_mode⟩
  | .stop p => some ⟨takenInRun, 0, p, fun s => (settleMode (stopRun s), okWith []), fun _ => okWith_ne_mode _⟩
  | .restart p => some ⟨takenAlways, 0, p, fun s => (restarted s, okWith []), fun _ => okWith_ne_mode _⟩
  | .allClear p => some ⟨takenInRun, 0, p, allClearWork, fun _ => okWith_ne_mode _⟩
  | .recallPiston p => some ⟨takenInRun, 2, p, recallWork p, recallWork_ne_mode p⟩
  | .setLevel p => some ⟨takenInRun, 2, p, setLevelWork p, setLevelWork_ne_mode p⟩
  | .lookup p => some ⟨takenAlways, 2, p, lookupWork p, lookupWork_ne_mode p⟩
  | .nextRecord p => some ⟨takenAlways, 2, p, nextRecordWork p, nextRecordWork_ne_mode p⟩
  | .silence p => some ⟨takenInRun, 2, p, silenceWork p, silenceWork_ne_mode p⟩
  | .readStatusPort p => some ⟨takenAlways, 1, p, fun s => (s, portAnswer s (byteAt p 0) true portStatus),
      fun s => portAnswer_ne_mode s _ _ _⟩
  | .readStatusRail p => some ⟨takenAlways, 1, p,
      fun s => (s, entryAnswer (within 0 3 (byteAt p 0)) (railStatus (railAt s (byteAt p 0)))),
      fun _ => entryAnswer_ne_mode _ _⟩
  | .readStatusLink p => some ⟨takenAlways, 1, p,
      fun s => (s, entryAnswer (within 0 3 (byteAt p 0)) (linkStatus s (byteAt p 0))),
      fun _ => entryAnswer_ne_mode _ _⟩
  | .readStatusExpression p => some ⟨takenAlways, 1, p,
      fun s => (s, entryAnswer (within 0 7 (byteAt p 0)) (exprStatus (runAt s (byteAt p 0)))),
      fun _ => entryAnswer_ne_mode _ _⟩
  | .readStatusStopSets p => some ⟨takenAlways, 1, p,
      fun s => (s, okWith (stopSetBytes s.drawn ++ stopSetBytes (effectiveSet s))), fun _ => okWith_ne_mode _⟩
  | .readStatusMode p => some ⟨takenAlways, 1, p, fun s => (s, okWith (modeStatus s)), fun _ => okWith_ne_mode _⟩
  | .readAttention p => some ⟨takenAlways, 0, p, fun s => (s, okWith (attentionStatus s)), fun _ => okWith_ne_mode _⟩
  | .clearAttention p => some ⟨takenPlaying, 2, p, clearAttentionWork p, clearAttentionWork_ne_mode p⟩
  | .writeAttentionEnable p => some ⟨takenPlaying, 2, p, writeAttentionEnableWork p,
      writeAttentionEnableWork_ne_mode p⟩
  | .readCounters p => some ⟨takenAlways, 0, p,
      fun s => (s, okWith (s.counters.toList.flatMap fun w => bytes2 w.toNat)), fun _ => okWith_ne_mode _⟩
  | .clearCounters p => some ⟨takenPlaying, 0, p, fun s => ({ s with counters := Vector.replicate 24 0 }, okWith []),
      fun _ => okWith_ne_mode _⟩
  | .readDirty p => some ⟨takenAlways, 0, p,
      fun s => ({ s with dirty := [], dirtyOverflow := false }, okWith (dirtyStatus s)), fun _ => okWith_ne_mode _⟩
  | .clearFaultOne p => some ⟨takenPlaying, 2, p, clearFaultOneWork p, clearFaultOneWork_ne_mode p⟩
  | .clearFaultAll p => some ⟨takenPlaying, 0, p,
      fun s => ({ s with faults := [] }, okWith (bytes2 s.faults.length)), fun _ => okWith_ne_mode _⟩
  | .nextFault p => some ⟨takenAlways, 2, p, nextFaultWork p, nextFaultWork_ne_mode p⟩
  | _ => none

/-- The commands with a row are those that carry a request's parameters. -/
theorem parameters_eq_requestRow (c : Instr) : c.parameters = (requestRow c).map RequestRow.params := by
  cases c <;> rfl

theorem exists_requestRow {c : Instr} {p : List Byte} (h : c.parameters = some p) :
    ∃ row, requestRow c = some row ∧ row.params = p := by
  rwa [parameters_eq_requestRow, Option.map_eq_some_iff] at h

section Row

variable {c : Instr} {row : RequestRow} (hrow : requestRow c = some row)

include hrow

/-- The arm of a command with a row is `request` of that row. -/
theorem exec_of_requestRow (s : State) :
    exec c s = .next (request row.taken row.length row.params row.work s) := by
  cases c <;> cases hrow <;> rfl

/-- The row's modes are those of the table of R163. -/
theorem takenIn_of_requestRow (m : Mode) : c.takenIn m = row.taken m := by
  cases c <;> cases hrow <;> cases m <;> rfl

/-- The row's length is that of R177. -/
theorem length_of_requestRow {n : Nat} (hn : c.parameterLength = some n) : row.length = n := by
  cases c <;> cases hrow <;> cases hn <;> rfl

end Row

/-- A request transaction is one of a row, one that fails its check, one of an unknown code, or one that the line
itself names discarded. -/
theorem isRequest_cases {c : Instr} (h : c.isRequest = true) :
    (∃ row, requestRow c = some row) ∨ (∃ bytes, c = .requestCheckFailed bytes)
      ∨ (∃ code params, c = .unknownRequest code params) ∨ c = .requestDiscarded := by
  cases hp : c.parameters with
  | some p =>
    obtain ⟨row, hrow, -⟩ := exists_requestRow hp
    exact .inl ⟨row, hrow⟩
  | none =>
    cases c
    case requestCheckFailed bytes => exact .inr (.inl ⟨bytes, rfl⟩)
    case unknownRequest code params => exact .inr (.inr (.inl ⟨code, params, rfl⟩))
    case requestDiscarded => exact .inr (.inr (.inr rfl))
    all_goals simp [Instr.parameters, Instr.isRequest] at hp h

/-! ### What a request comes to (R161, R162, R163) -/

theorem discardRequest_eq (s : State) :
    discardRequest s = { s with
      dataOut := [], discardTally := min 255 (s.discardTally + 1)
      counters := put s.counters 15 (countUp (look s.counters 15 0)) } := rfl

theorem exec_requestCheckFailed (bytes : List Byte) (s : State) :
    exec (.requestCheckFailed bytes) s = .next (arrives (fun s => respond (refuse s .check)) s) := rfl

theorem exec_unknownRequest (code : Byte) (params : List Byte) (s : State) :
    exec (.unknownRequest code params) s =
      .next (arrives (fun s => respond (refuse s (unknownStatus s.mode code))) s) := rfl

theorem exec_requestDiscarded (s : State) :
    exec .requestDiscarded s = .next (takesTransaction (fun s => if s.response.isSome then discardRequest s else s) s) :=
  rfl

/-- While a response is outstanding every request transaction is discarded, whatever it is (R161). -/
theorem exec_outstanding {c : Instr} {s : State} (hc : c.isRequest = true) (hline : s.resetLine = .released)
    (hout : s.response.isSome = true) : exec c s = .next (discardRequest s) := by
  obtain ⟨row, hrow⟩ | ⟨bytes, rfl⟩ | ⟨code, params, rfl⟩ | rfl := isRequest_cases hc
  · rw [exec_of_requestRow hrow, request_discarded _ _ _ _ hline hout]
  · rw [exec_requestCheckFailed, arrives_discarded _ hline hout]
  · rw [exec_unknownRequest, arrives_discarded _ hline hout]
  · rw [exec_requestDiscarded, takesTransaction_released _ hline, if_pos hout]

/-- A request of a row that a free port takes is answered: in the mode with its work, and else with the refusal. -/
theorem request_free_isSome (row : RequestRow) {s : State} (hfree : PortFree s) :
    (request row.taken row.length row.params row.work s).response.isSome = true := by
  cases hmode : row.taken s.mode with
  | false => rw [request_mode _ _ _ _ hfree hmode]; rfl
  | true =>
    by_cases hlength : row.params.length = row.length
    · rw [request_work _ _ hfree hmode hlength]; rfl
    · rw [request_range _ _ _ _ hfree hmode hlength]; rfl

/-- A free port answers every request transaction. -/
theorem exec_free_answers {c : Instr} {s : State} (hc : c.isRequest = true) (hne : c ≠ .requestDiscarded)
    (hfree : PortFree s) : ∃ t, exec c s = .next t ∧ t.response.isSome = true := by
  obtain ⟨row, hrow⟩ | ⟨bytes, rfl⟩ | ⟨code, params, rfl⟩ | rfl := isRequest_cases hc
  · exact ⟨_, exec_of_requestRow hrow s, request_free_isSome row hfree⟩
  · rw [exec_requestCheckFailed, arrives_free _ hfree]
    exact ⟨_, rfl, rfl⟩
  · rw [exec_unknownRequest, arrives_free _ hfree]
    exact ⟨_, rfl, rfl⟩
  · exact absurd rfl hne

/-- A request of a row taken in the mode is answered with a status other than MODE: RANGE for its length, or the answer
of its work. -/
theorem request_taken_ne_mode (row : RequestRow) {s : State} (hfree : PortFree s) (hmode : row.taken s.mode = true) :
    ∃ r, (request row.taken row.length row.params row.work s).response = some r ∧ r.status ≠ .mode := by
  by_cases hlength : row.params.length = row.length
  · rw [request_work _ _ hfree hmode hlength]
    exact ⟨_, rfl, row.work_ne_mode _⟩
  · rw [request_range _ _ _ _ hfree hmode hlength]
    exact ⟨_, rfl, by decide⟩

/-- Settles O6: each request is `request` of its row, whose modes and length are those of R163 and R177 and whose work
never answers MODE. -/
theorem modeAndLengthGovernRequests : Obligations.ModeAndLengthGovernRequests := by
  intro c s hfree
  refine ⟨fun hp hmode => ?refused, fun hp hmode => ?taken, fun p n hp hn hlength hmode => ?range⟩
  case refused =>
    obtain ⟨p, hp⟩ := Option.isSome_iff_exists.mp hp
    obtain ⟨row, hrow, -⟩ := exists_requestRow hp
    rw [takenIn_of_requestRow hrow] at hmode
    rw [exec_of_requestRow hrow, request_mode _ _ _ _ hfree hmode]
  case taken =>
    obtain ⟨p, hp⟩ := Option.isSome_iff_exists.mp hp
    obtain ⟨row, hrow, -⟩ := exists_requestRow hp
    rw [takenIn_of_requestRow hrow] at hmode
    obtain ⟨r, hresponse, hstatus⟩ := request_taken_ne_mode row hfree hmode
    exact ⟨_, r, exec_of_requestRow hrow s, hresponse, hstatus⟩
  case range =>
    obtain ⟨row, hrow, rfl⟩ := exists_requestRow hp
    rw [takenIn_of_requestRow hrow] at hmode
    rw [← length_of_requestRow hrow hn] at hlength
    rw [exec_of_requestRow hrow, request_range _ _ _ _ hfree hmode hlength]

/-! ### Fetches (R160) -/

theorem exec_fetch {s : State} (n : Nat) (hline : s.resetLine = .released) :
    exec (.fetch n) s = .next (fetchResponse n s) :=
  congrArg _ (takesTransaction_released _ hline)

theorem fetchResponse_none {s : State} (n : Nat) (h : s.response = none) : fetchResponse n s = idleFill s := by
  simp only [fetchResponse, h]

section Waiting

variable {s : State} {r : Response} {n : Nat} (hr : s.response = some r)

include hr

theorem fetchResponse_full (hn : (responseBytes s.discardTally r).length ≤ n) :
    fetchResponse n s =
      { s with dataOut := responseBytes s.discardTally r, response := none, discardTally := 0 } := by
  simp only [fetchResponse, hr, if_pos hn, List.take_of_length_le hn, consumed]

theorem fetchResponse_partial (hn : n < (responseBytes s.discardTally r).length) :
    fetchResponse n s = { s with dataOut := (responseBytes s.discardTally r).take n } := by
  simp only [fetchResponse, hr, if_neg hn.not_ge]

theorem dataOut_fetchResponse : (fetchResponse n s).dataOut = (responseBytes s.discardTally r).take n := by
  rcases Nat.lt_or_ge n (responseBytes s.discardTally r).length with hn | hn
  · rw [fetchResponse_partial hr hn]
  · rw [fetchResponse_full hr hn, List.take_of_length_le hn]

end Waiting

theorem length_responseBytes (tally : Nat) (r : Response) :
    (responseBytes tally r).length = r.payload.length + 5 := by
  simp [responseBytes, responseBody, bytes2]

theorem dataOutByte_idle (s : State) (i : Nat) : dataOutByte { s with dataOut := [] } i = 0xFF#8 := by
  cases i <;> rfl

theorem dataOutByte_succ (s : State) (i : Nat) : dataOutByte s (i + 1) = s.dataOut.getD i 0xFF#8 := rfl

/-- Where the first `n` bytes of a list reach beyond a place of it, they read there as the list does, whatever the two
fills are. -/
theorem getD_take_eq_getD {α : Type} {bytes : List α} {i n : Nat} (d e : α) (hn : i < n) (hi : i < bytes.length) :
    (bytes.take n).getD i d = bytes.getD i e := by
  simp [List.getD, List.getElem?_take_of_lt hn, hi]

/-- Settles O4: `responseBytes` is the response as R160 writes it; a fetch clocks out its first bytes, and one that
reaches its end consumes the response. -/
theorem fetchClocksOutResponse : Obligations.FetchClocksOutResponse := by
  intro s n hline
  refine ⟨fun hnone => ⟨?_, dataOutByte_idle s⟩, fun r hr => ⟨fun hfull => ?_, fun hpart => ?_, fun t ht i hin hi => ?_⟩⟩
  · rw [exec_fetch n hline, fetchResponse_none n hnone]
    rfl
  · rw [exec_fetch n hline, fetchResponse_full hr hfull]
    rfl
  · rw [exec_fetch n hline, fetchResponse_partial hr hpart]
    rfl
  · rw [exec_fetch n hline] at ht
    cases ht
    rw [dataOutByte_succ, dataOut_fetchResponse hr]
    exact getD_take_eq_getD _ _ hin hi

/-- Settles O3: `exec_outstanding` discards, a full fetch shows and clears the tally, and the port it frees answers. -/
theorem outstandingRequestDiscards : Obligations.OutstandingRequestDiscards := by
  refine ⟨fun c s hc hline hout => ?_, fun s r n hline hr hn => ?_, fun c s hc hne hfree => ?_⟩
  · rw [exec_outstanding hc hline hout, discardRequest_eq]
  · rw [← length_responseBytes s.discardTally r] at hn
    exact ⟨_, (exec_fetch n hline).trans (congrArg _ (fetchResponse_full hr hn)), rfl, rfl, rfl⟩
  · exact exec_free_answers hc hne hfree

end Sys2Proof.Proofs.ServicePort
end

section
/-! PROOFS. RESTART (R167): what `restarted` leaves of each unit read by its number, and the statement O18 from these. -/

namespace Sys2Proof.Proofs.Restart

open Sys2Proof.Machine

/-! ### The restarted relay, unit by unit (R167) -/

theorem portAt_restarted (s : State) (p : PortId) :
    portAt (restarted s) p = { ConsolePort.reset with
      entry := (portAt s p).entry, slotMap := (portAt s p).slotMap, returnMap := (portAt s p).returnMap } := by
  cases p <;> rfl

theorem linkAt_restarted (s : State) {l : Nat} (hl : l < 4) :
    linkAt (restarted s) l = Link.idle (linkAt s l).entry :=
  look_mapTable _ _ _ hl

theorem railAt_restarted (s : State) {k : Nat} (hk : k < 4) :
    railAt (restarted s) k = { Rail.unset with entry := (railAt s k).entry } :=
  look_mapTable _ _ _ hk

/-- A table filled with the value it reads beyond its end reads that value everywhere. -/
theorem look_replicate_default {α : Type} (n i : Nat) (d : α) : look (Vector.replicate n d) i d = d := by
  rw [look_replicate, ite_self]

theorem recordAt_restarted (s : State) (i : Nat) : recordAt (restarted s) i = none :=
  look_replicate_default _ _ _

theorem runAt_restarted (s : State) (e : Nat) : runAt (restarted s) e = ExprRun.clear :=
  look_replicate_default _ _ _

theorem counterAt_restarted (s : State) (c : Counter) : counterAt (restarted s) c = 0 :=
  look_replicate_default _ _ _

theorem details_restarted (s : State) (c : Cause) : look (restarted s).details (Cause.bit c) .none = .none :=
  look_replicate_default _ _ _

theorem tableEmpty_restarted (s : State) : tableEmpty (restarted s) = true :=
  (tableEmpty_iff _).mpr (recordAt_restarted s)

/-! ### The answered state's units are the state's -/

section Answered

variable (s : State) (st : Status) (payload : List Byte)

theorem portAt_answered (p : PortId) : portAt (answered s st payload) p = portAt s p := by
  rw [answered_eq_withPort, portAt_withPort]

theorem railAt_answered (k : Nat) : railAt (answered s st payload) k = railAt s k := rfl

theorem linkAt_answered (l : Nat) : linkAt (answered s st payload) l = linkAt s l := rfl

end Answered

/-! ### The request (R161, R163) -/

theorem exec_restart (params : List Byte) (s : State) :
    exec (.restart params) s =
      .next (request takenAlways 0 params (fun s => (restarted s, okWith [])) s) := rfl

/-- With the port free RESTART is worked in every mode. -/
theorem exec_restart_free {s : State} (hfree : PortFree s) :
    exec (.restart []) s = .next (answered (restarted s) .ok []) := by
  have hlength : ([] : List Byte).length = 0 := rfl
  rw [exec_restart, request_work _ _ hfree rfl hlength]
  rfl

/-- While a response waits RESTART is discarded, or with the RESET line asserted not taken at all: either way it moves
nothing but the port's tally, counter and data-out. -/
theorem exec_restart_outstanding {s : State} (hout : s.response.isSome = true) :
    exec (.restart []) s = .next (discardRequest s) ∨ exec (.restart []) s = .next (idleFill s) := by
  rw [exec_restart]
  cases hline : s.resetLine with
  | released => exact .inl (congrArg _ (request_discarded _ _ _ _ hline hout))
  | asserted => exact .inr (congrArg _ (request_asserted _ _ _ _ hline))

/-- Settles O18, unit by unit from the lemmas about `restarted`. -/
theorem restartKeepsTablesAndDropsTheRest : Obligations.RestartKeepsTablesAndDropsTheRest := by
  refine fun s => ⟨fun hout => ?discarded, fun hfree => ?worked⟩
  case discarded =>
    obtain hdiscarded | huntaken := exec_restart_outstanding hout
    · exact ⟨_, hdiscarded, rfl, rfl, rfl⟩
    · exact ⟨_, huntaken, rfl, rfl, rfl⟩
  case worked =>
    refine ⟨_, exec_restart_free hfree, rfl, rfl, rfl, rfl, rfl, rfl, rfl, rfl, rfl, rfl, fun p => ?keptPort,
      fun l hl => ?linkEntry, fun k hk => ?railEntry, tableEmpty_restarted s, fun k hk => ?rail, rfl, rfl,
      runAt_restarted s, fun p => ?port, rfl, rfl, fun l hl => ?link, rfl, rfl, details_restarted s, rfl,
      counterAt_restarted s, rfl⟩
    case keptPort => rw [portAt_answered, portAt_restarted]
    case linkEntry => rw [linkAt_answered, linkAt_restarted s hl]; rfl
    case railEntry => rw [railAt_answered, railAt_restarted s hk]
    case rail => rw [railAt_answered, railAt_restarted s hk]; exact ⟨rfl, rfl, rfl⟩
    case port =>
      rw [portAt_answered, portAt_restarted]
      exact ⟨rfl, rfl, rfl, rfl, rfl, rfl, rfl, rfl, rfl, rfl⟩
    case link =>
      rw [linkAt_answered, linkAt_restarted s hl]
      exact ⟨rfl, rfl, rfl, rfl, rfl, rfl, rfl, rfl⟩

end Sys2Proof.Proofs.Restart
end

section
/-! PROOFS. What one step can do, said once (R161 to R163): a request moves the service port, the flags and what its own
work moves; and a fact that the port, the flags, each request's work, each event and a millisecond all keep is kept by
every step. -/

namespace Sys2Proof.Proofs.Steps

open Sys2Proof.Machine Sys2Proof.Proofs.ServicePort

/-! ### What no invariant but the lists' own looks at -/

/-- t is s but for the service port, the flags and counters, the mute windows, the combinations, the queue and the
model's count; and of the dirty list and the fault set some members may be gone. -/
structure Aside (s t : State) : Prop where
  ranks : t.ranks = s.ranks
  stops : t.stops = s.stops
  grants : t.grants = s.grants
  drawn : t.drawn = s.drawn
  tremulants : t.tremulants = s.tremulants
  expression : t.expression = s.expression
  runs : t.runs = s.runs
  crescendo : t.crescendo = s.crescendo
  table : t.table = s.table
  rails : t.rails = s.rails
  portA : t.portA = s.portA
  portB : t.portB = s.portB
  links : t.links = s.links
  mode : t.mode = s.mode
  faults : t.faults.Sublist s.faults
  dirty : t.dirty.Sublist s.dirty
  tally : s.discardTally ≤ 255 → t.discardTally ≤ 255

namespace Aside

theorem refl (s : State) : Aside s s :=
  ⟨rfl, rfl, rfl, rfl, rfl, rfl, rfl, rfl, rfl, rfl, rfl, rfl, rfl, rfl, List.Sublist.refl _, List.Sublist.refl _, id⟩

theorem trans {s t u : State} (h : Aside s t) (k : Aside t u) : Aside s u where
  ranks := k.ranks.trans h.ranks
  stops := k.stops.trans h.stops
  grants := k.grants.trans h.grants
  drawn := k.drawn.trans h.drawn
  tremulants := k.tremulants.trans h.tremulants
  expression := k.expression.trans h.expression
  runs := k.runs.trans h.runs
  crescendo := k.crescendo.trans h.crescendo
  table := k.table.trans h.table
  rails := k.rails.trans h.rails
  portA := k.portA.trans h.portA
  portB := k.portB.trans h.portB
  links := k.links.trans h.links
  mode := k.mode.trans h.mode
  faults := k.faults.trans h.faults
  dirty := k.dirty.trans h.dirty
  tally := fun hs => k.tally (h.tally hs)

theorem portAt_eq {s t : State} (h : Aside s t) (p : PortId) : portAt t p = portAt s p := by
  cases p
  · exact h.portA
  · exact h.portB

end Aside

/-- The service port's own fields aside, a state is itself (R159 to R161). -/
theorem aside_port (s : State) (d : List Byte) (r : Option Response) (counters : Vector Word 24) {tally : Nat}
    (htally : s.discardTally ≤ 255 → tally ≤ 255) :
    Aside s { s with dataOut := d, response := r, counters := counters, discardTally := tally } :=
  ⟨rfl, rfl, rfl, rfl, rfl, rfl, rfl, rfl, rfl, rfl, rfl, rfl, rfl, rfl, List.Sublist.refl _, List.Sublist.refl _,
    htally⟩

theorem aside_idleFill (s : State) : Aside s (idleFill s) :=
  aside_port s [] s.response s.counters id

theorem aside_discardRequest (s : State) : Aside s (discardRequest s) :=
  aside_port s [] s.response _ fun _ => Nat.min_le_left _ _

theorem aside_respond (x : State × Response) : Aside x.1 (respond x) :=
  aside_port x.1 x.1.dataOut (some x.2) x.1.counters id

theorem aside_answered (s : State) (st : Status) (payload : List Byte) : Aside s (answered s st payload) :=
  aside_port s [] _ s.counters id

theorem aside_pending (s : State) (q : List Instr) (n : Nat) : Aside s { s with pending := q, choices := n } :=
  ⟨rfl, rfl, rfl, rfl, rfl, rfl, rfl, rfl, rfl, rfl, rfl, rfl, rfl, rfl, List.Sublist.refl _, List.Sublist.refl _, id⟩

theorem aside_fetchResponse (n : Nat) (s : State) : Aside s (fetchResponse n s) := by
  unfold fetchResponse
  split
  · exact aside_idleFill s
  · dsimp only
    split
    · exact aside_port s _ none s.counters fun _ => Nat.zero_le _
    · exact aside_port s _ s.response s.counters id

theorem aside_takesTransaction {work : State → State} (h : ∀ s, Aside s (work s)) (s : State) :
    Aside s (takesTransaction work s) := by
  unfold takesTransaction
  split
  · exact aside_idleFill s
  · exact h s

theorem aside_arrives {judge : State → State} (h : ∀ s, Aside s (judge s)) (s : State) :
    Aside s (arrives judge s) := by
  refine aside_takesTransaction (fun s => ?_) s
  split
  · exact aside_discardRequest s
  · exact (aside_idleFill s).trans (h _)

/-! ### What a request comes to -/

/-- A request leaves its state aside from the port, or is worked in a mode that takes it and answered. -/
theorem request_cases (taken : Mode → Bool) (length : Nat) (params : List Byte) (work : State → State × Response)
    (s : State) :
    Aside s (request taken length params work s)
      ∨ (taken s.mode = true ∧ params.length = length
        ∧ request taken length params work s = respond (work (idleFill s))) := by
  cases hline : s.resetLine with
  | asserted => rw [request_asserted _ _ _ _ hline]; exact .inl (aside_idleFill s)
  | released =>
    cases hout : s.response with
    | some r =>
      rw [request_discarded _ _ _ _ hline (by rw [hout]; rfl)]
      exact .inl (aside_discardRequest s)
    | none =>
      have hfree : PortFree s := ⟨hline, hout⟩
      cases hmode : taken s.mode with
      | false => rw [request_mode _ _ _ _ hfree hmode]; exact .inl (aside_answered s _ _)
      | true =>
        by_cases hlength : params.length = length
        · exact .inr ⟨rfl, hlength, request_work _ _ hfree hmode hlength⟩
        · rw [request_range _ _ _ _ hfree hmode hlength]; exact .inl (aside_answered s _ _)

/-- The commands that move more than the service port and are no request: the reset line, the console links, the
chamber links and the timers. -/
def isEvent : Instr → Bool
  | .voidTransaction _ | .fetch _ => false
  | c => !c.isRequest

/-- A command that is no event leaves its state aside from the port, or is a request of a row, worked. -/
theorem exec_cases {c : Instr} {s t : State} (h : exec c s = .next t) :
    isEvent c = true ∨ Aside s t
      ∨ ∃ row, requestRow c = some row ∧ row.taken s.mode = true ∧ t = respond (row.work (idleFill s)) := by
  cases hc : c.isRequest with
  | true =>
    refine .inr ?_
    obtain ⟨row, hrow⟩ | ⟨bytes, rfl⟩ | ⟨code, params, rfl⟩ | rfl := isRequest_cases hc
    · rw [exec_of_requestRow hrow] at h
      obtain rfl := Host.Outcome.next.inj h
      rcases request_cases row.taken row.length row.params row.work s with ha | ⟨htaken, -, heq⟩
      · exact .inl ha
      · exact .inr ⟨row, hrow, htaken, heq⟩
    · rw [exec_requestCheckFailed] at h
      obtain rfl := Host.Outcome.next.inj h
      exact .inl (aside_arrives (fun s => aside_respond (refuse s .check)) s)
    · rw [exec_unknownRequest] at h
      obtain rfl := Host.Outcome.next.inj h
      exact .inl (aside_arrives (fun s => aside_respond (refuse s _)) s)
    · rw [exec_requestDiscarded] at h
      obtain rfl := Host.Outcome.next.inj h
      refine .inl (aside_takesTransaction (fun s => ?_) s)
      split
      · exact aside_discardRequest s
      · exact Aside.refl s
  | false =>
    cases c with
    | voidTransaction bytes =>
      obtain rfl := Host.Outcome.next.inj h
      exact .inr (.inl (aside_idleFill s))
    | fetch n =>
      obtain rfl := Host.Outcome.next.inj h
      exact .inr (.inl (aside_takesTransaction (aside_fetchResponse n) s))
    | _ => first
      | exact .inl rfl
      | exact absurd hc (by simp [Instr.isRequest])

/-! ### What every step keeps -/

/-- A fact that what is aside, the work of each request, each event and a millisecond keep. -/
structure KeptByAll (P : State → Prop) : Prop where
  aside : ∀ {s t}, Aside s t → P s → P t
  work : ∀ {c row s}, requestRow c = some row → row.taken s.mode = true → P s → P (row.work s).1
  event : ∀ {c s t}, isEvent c = true → exec c s = .next t → P s → P t
  tick : ∀ {s}, P s → P (passMillisecond s)

theorem KeptByAll.exec {P : State → Prop} (h : KeptByAll P) {c : Instr} {s t : State} (hs : P s)
    (he : exec c s = .next t) : P t := by
  rcases exec_cases he with hev | ha | ⟨row, hrow, htaken, rfl⟩
  · exact h.event hev he hs
  · exact h.aside ha hs
  · exact h.aside (aside_respond _) (h.work hrow htaken (h.aside (aside_idleFill s) hs))

/-- Every step keeps what all its parts keep: the command at the front of the queue, the event taken on an empty one, or
the millisecond that passes. -/
theorem KeptByAll.step {P : State → Prop} (h : KeptByAll P) {s t : State} (hs : P s)
    (he : step s = .next t) : P t := by
  cases hq : s.pending with
  | cons c rest =>
    simp only [Machine.step, hq] at he
    exact h.exec (h.aside (aside_pending s rest s.choices) hs) he
  | nil =>
    simp only [Machine.step, hq, idleStep] at he
    split at he
    · obtain rfl := Host.Outcome.next.inj he
      exact h.tick hs
    · exact h.exec hs he
    · exact h.exec (h.aside (aside_pending s [] _) hs) he

end Sys2Proof.Proofs.Steps
end

section
/-! PROOFS. What the console's events, the pistons, the Expression unit and the registration writes do to the sounding
table and the rails, said once: `Sounds s t`, t comes from s by claim requests, release requests and changes that the
table and the rails do not see. A fact of the table and the rails that the two requests keep is kept by all of them. -/

namespace Sys2Proof.Proofs.Playing

open Sys2Proof.Machine

/-! ### The relation -/

/-- t is s but for what neither the table, the rails nor the links look at; the dirty list stays sound and the levels
within 15. -/
structure Quiet (s t : State) : Prop where
  ranks : t.ranks = s.ranks
  table : t.table = s.table
  rails : t.rails = s.rails
  mode : t.mode = s.mode
  links : t.links = s.links
  faults : t.faults = s.faults
  tally : t.discardTally = s.discardTally
  dirty : DirtySound s → DirtySound t
  level : (∀ p, (portAt s p).level ≤ 15) → ∀ p, (portAt t p).level ≤ 15

/-- t comes from s by claim requests, release requests and quiet changes, in some order. -/
inductive Sounds (s : State) : State → Prop where
  | refl : Sounds s s
  | quiet {t u : State} : Sounds s t → Quiet t u → Sounds s u
  | claim {t : State} (c : Claim) (rank pipe : Nat) : Sounds s t → Sounds s (claimRequest t c rank pipe)
  | release {t : State} (pat : Pattern) : Sounds s t → Sounds s (releaseRequest t pat)

theorem Sounds.trans {s t u : State} (h : Sounds s t) (k : Sounds t u) : Sounds s u := by
  induction k with
  | refl => exact h
  | quiet _ q ih => exact ih.quiet q
  | claim c rank pipe _ ih => exact ih.claim c rank pipe
  | release pat _ ih => exact ih.release pat

theorem Quiet.sounds {s t : State} (h : Quiet s t) : Sounds s t := Sounds.refl.quiet h

/-- A fold of sounding steps sounds. -/
theorem Sounds.foldl {α : Type} {f : State → α → State} (h : ∀ s a, Sounds s (f s a)) (xs : List α) (s : State) :
    Sounds s (xs.foldl f s) := by
  induction xs generalizing s with
  | nil => exact .refl
  | cons a t ih => exact (h s a).trans (ih _)

/-- What quiet changes, claim requests and release requests keep is kept. -/
theorem Sounds.keeps {P : State → Prop} (quiet : ∀ {s t}, Quiet s t → P s → P t)
    (claim : ∀ s c rank pipe, P s → P (claimRequest s c rank pipe)) (release : ∀ s pat, P s → P (releaseRequest s pat))
    {s t : State} (h : Sounds s t) (hs : P s) : P t := by
  induction h with
  | refl => exact hs
  | quiet _ q ih => exact quiet q ih
  | claim c rank pipe _ ih => exact claim _ c rank pipe ih
  | release pat _ ih => exact release _ pat ih

theorem Sounds.mode_eq {s t : State} (h : Sounds s t) : t.mode = s.mode :=
  h.keeps (P := fun t => t.mode = s.mode) (fun q h => q.mode.trans h)
    (fun u c rank pipe h => (plays_claimRequest u c rank pipe).mode_eq.trans h)
    (fun u pat h => (plays_releaseRequest (fun _ => True) u pat).mode_eq.trans h) rfl

/-! ### Quiet changes -/

theorem quiet_setPort (s : State) (p : PortId) {c : ConsolePort}
    (h : (portAt s p).level ≤ 15 → c.level ≤ 15 := by exact id) :
    Quiet s (setPort s p c) := by
  have level (hs : ∀ p, (portAt s p).level ≤ 15) (q : PortId) : (portAt (setPort s p c) q).level ≤ 15 := by
    rw [portAt_setPort]
    split
    · exact h (hs p)
    · exact hs q
  cases p <;> exact ⟨rfl, rfl, rfl, rfl, rfl, rfl, rfl, id, level⟩

theorem quiet_bump (s : State) (c : Counter) : Quiet s (bump s c) :=
  ⟨rfl, rfl, rfl, rfl, rfl, rfl, rfl, id, fun h p => by cases p; exact h .A; exact h .B⟩

theorem quiet_raise (s : State) (c : Cause) (d : Detail) : Quiet s (raise s c d) :=
  ⟨rfl, rfl, rfl, rfl, rfl, rfl, rfl, id, fun h p => by cases p; exact h .A; exact h .B⟩

/-- What the Registration and Expression units store is no business of the table and the rails. -/
theorem quiet_registration (s : State) (stops : Vector StopEntry 256) (grants : Vector (Option PortId) 6)
    (drawn : StopSet) (tremulants : BitVec 64) (expression : Vector ExprEntry 8) (runs : Vector ExprRun 8)
    (crescendo : Vector StopSet 15) :
    Quiet s { s with
      stops := stops, grants := grants, drawn := drawn, tremulants := tremulants, expression := expression
      runs := runs, crescendo := crescendo } :=
  ⟨rfl, rfl, rfl, rfl, rfl, rfl, rfl, id, fun h p => by cases p; exact h .A; exact h .B⟩

theorem quiet_setDrawn (s : State) (x : StopSet) : Quiet s (setDrawn s x) :=
  quiet_registration s s.stops s.grants x s.tremulants s.expression s.runs s.crescendo

theorem quiet_setRun (s : State) (e : Nat) (r : ExprRun) : Quiet s (setRun s e r) :=
  quiet_registration s s.stops s.grants s.drawn s.tremulants s.expression _ s.crescendo

theorem quiet_setStop (s : State) (n : Nat) (e : StopEntry) : Quiet s (setStop s n e) :=
  quiet_registration s _ s.grants s.drawn s.tremulants s.expression s.runs s.crescendo

theorem quiet_retakeTremulant (s : State) (rank : Nat) : Quiet s (retakeTremulant s rank) :=
  quiet_registration s s.stops s.grants s.drawn _ s.expression s.runs s.crescendo

theorem sounds_bump (s : State) (c : Counter) : Sounds s (bump s c) := (quiet_bump s c).sounds

theorem sounds_setPort (s : State) (p : PortId) {c : ConsolePort}
    (h : (portAt s p).level ≤ 15 → c.level ≤ 15 := by exact id) :
    Sounds s (setPort s p c) :=
  (quiet_setPort s p h).sounds

/-! ### The Registration unit (R85 to R97) -/

theorem sounds_claimFor (s : State) (p : PortId) (d : Nat) (t : Touch) (k n : Nat) :
    Sounds s (claimFor s p d t k n) := by
  unfold claimFor
  split
  · exact .refl
  · exact Sounds.refl.claim _ _ _

theorem sounds_claimHeldKeys (s : State) (n : Nat) : Sounds s (claimHeldKeys s n) := by
  unfold claimHeldKeys
  dsimp only
  split
  · exact .refl
  · exact .foldl (fun s k => sounds_claimFor s _ _ _ k n) _ s

theorem sounds_goOff (s : State) (n : Nat) : Sounds s (goOff s n) := by
  unfold goOff
  split
  · exact .refl
  · exact (quiet_retakeTremulant s _).sounds
  · exact Sounds.refl.release _
  · exact Sounds.refl.release _

theorem sounds_comeOn (claims : Bool) (s : State) (n : Nat) : Sounds s (comeOn claims s n) := by
  have held : Sounds s (if claims then claimHeldKeys s n else s) := by
    split
    · exact sounds_claimHeldKeys s n
    · exact .refl
  unfold comeOn
  split
  · exact .refl
  · exact (quiet_retakeTremulant s _).sounds
  · exact held
  · exact held

theorem sounds_changeEffective (claims : Bool) (before : StopSet) (s : State) :
    Sounds s (changeEffective claims before s) :=
  (Sounds.foldl sounds_goOff _ s).trans (.foldl (sounds_comeOn claims) _ _)

theorem sounds_keyMake (s : State) (p : PortId) (d : Nat) (t : Touch) (k : Nat) : Sounds s (keyMake s p d t k) := by
  unfold keyMake
  split
  · exact .foldl (fun s n => sounds_claimFor s p d t k n) _ s
  · exact sounds_bump s _

theorem sounds_keyBreak (s : State) (p : PortId) (d : Nat) (t : Touch) (k : Nat) : Sounds s (keyBreak s p d t k) := by
  unfold keyBreak
  split
  · exact Sounds.refl.release _
  · exact sounds_bump s _

theorem sounds_tabEvent (s : State) (p : PortId) (n : Nat) (made : Bool) : Sounds s (tabEvent s p n made) := by
  unfold tabEvent
  dsimp only
  split
  · exact .refl
  split
  · exact sounds_bump s _
  split
  · exact .refl
  split
  · exact .refl
  · exact (quiet_setDrawn s _).sounds.trans (sounds_changeEffective _ _ _)

theorem sounds_playHeldKey (p : PortId) (d : Nat) (s : State) (k : Nat) : Sounds s (playHeldKey p d s k) := by
  have made (s : State) (t : Touch) : Sounds s (if keyMade (portAt s p) d t k then keyMake s p d t k else s) := by
    split
    · exact sounds_keyMake s p d t k
    · exact .refl
  exact (made s .first).trans (made _ .second)

theorem sounds_playHeldKeys (s : State) (p : PortId) (d : Nat) : Sounds s (playHeldKeys s p d) :=
  .foldl (sounds_playHeldKey p d) _ s

theorem sounds_undrive (s : State) (p : PortId) (x : StopSet) : Sounds s (undrive s p x) :=
  sounds_setPort s p

theorem sounds_grantChange (s : State) (d : Nat) (q : Option PortId) : Sounds s (grantChange s d q) := by
  have released (s : State) (old : Option PortId) : Sounds s (releaseHolder s d old) := by
    cases old with
    | none => exact .refl
    | some p => exact Sounds.refl.release _
  have undriven (s : State) (old : Option PortId) : Sounds s (undriveHolder s d old) := by
    cases old with
    | none => exact .refl
    | some p => exact sounds_undrive s p _
  have played (s : State) : Sounds s (playHolder s d q) := by
    cases q with
    | none => exact .refl
    | some p => exact sounds_playHeldKeys s p d
  exact (quiet_registration s s.stops (put s.grants d q) s.drawn s.tremulants s.expression s.runs
    s.crescendo).sounds.trans ((released _ _).trans ((undriven _ _).trans ((quiet_setDrawn _ _).sounds.trans
      ((sounds_changeEffective _ _ _).trans (played _)))))

theorem sounds_arrival (s : State) (p : PortId) : Sounds s (arrival s p) := by
  refine ((quiet_setDrawn s _).sounds.trans (sounds_changeEffective _ _ _)).trans (.foldl (fun s d => ?_) _ _)
  split
  · exact sounds_playHeldKeys s p d
  · exact .refl

/-! ### The Expression unit (R119 to R124) -/

theorem sounds_setStage (s : State) (e stage : Nat) : Sounds s (setStage s e stage) := by
  unfold setStage
  dsimp only
  split
  · exact (quiet_setRun s e _).sounds.trans (sounds_changeEffective _ _ _)
  · exact (quiet_setRun s e _).sounds

theorem sounds_workEntry (s : State) (e raw : Nat) : Sounds s (workEntry s e raw) := by
  have flagged (s : State) (b : Bool) (d : Detail) : Sounds s (if b then raise s .expressionFault d else s) := by
    split
    · exact (quiet_raise s _ _).sounds
    · exact .refl
  unfold workEntry
  dsimp only
  split
  · exact (quiet_setRun s e _).sounds.trans (flagged _ _ _)
  split
  · exact (quiet_setRun s e _).sounds.trans (flagged _ _ _)
  · exact ((quiet_setRun s e _).sounds.trans (flagged _ _ _)).trans (sounds_setStage _ _ _)

theorem sounds_walkFrom (p : PortId) (data : List Word) (left e : Nat) (s : State) :
    Sounds s (walkFrom p data left e s) := by
  induction left generalizing e s with
  | zero => exact .refl
  | succ left ih =>
    unfold walkFrom
    dsimp only
    split
    · exact .refl
    · refine Sounds.trans ?_ (ih _ _)
      split
      · exact sounds_workEntry s e _
      · exact .refl

theorem sounds_walk (s : State) (p : PortId) (data : List Word) : Sounds s (walk s p data) :=
  sounds_walkFrom p data 8 0 s

/-! ### The piston unit (R101 to R113) -/

theorem sounds_setPortLevel (s : State) (p : PortId) {level : Nat} (h : (portAt s p).level ≤ 15 → level ≤ 15) :
    Sounds s (setPortLevel s p level) :=
  sounds_setPort s p h

theorem sounds_setRecall (s : State) (p : PortId) (r : RecallSlot) : Sounds s (setRecall s p r) :=
  sounds_setPort s p

theorem sounds_recallPress (s : State) (p : PortId) (code : Nat) : Sounds s (recallPress s p code).1 := by
  unfold recallPress
  dsimp only
  split
  · exact sounds_bump s _
  split
  · exact sounds_setRecall s p _
  · exact ((quiet_setDrawn s _).sounds.trans (sounds_changeEffective _ _ _)).trans (sounds_setRecall _ p _)

theorem sounds_pistonAction (s : State) (p : PortId) (code : Nat) : Sounds s (pistonAction s p code).1 := by
  unfold pistonAction
  split
  · exact sounds_recallPress s p code
  split
  · exact sounds_setPortLevel s p fun _ => Nat.min_le_left _ _
  split
  · exact sounds_setPortLevel s p fun h => (Nat.sub_le _ _).trans h
  · exact .refl

/-- A name appended to a sound list that has room for it and does not hold it leaves the list sound (R113). -/
theorem dirtySound_append {s t : State} {name : Nat × Nat} (hs : DirtySound s) (hmem : s.dirty.contains name = false)
    (hroom : s.dirty.length < Config.maxDirty) (ht : t.dirty = s.dirty ++ [name]) : DirtySound t := by
  obtain ⟨hnodup, -⟩ := hs
  refine ⟨?_, ?_⟩
  · rw [ht, List.nodup_append]
    refine ⟨hnodup, List.nodup_singleton _, fun a ha b hb => ?_⟩
    obtain rfl := List.mem_singleton.mp hb
    rintro rfl
    simp [ha] at hmem
  · rw [ht, List.length_append, List.length_singleton]
    exact hroom

theorem quiet_dirtyAppend (s : State) (p : PortId) (name : Nat × Nat) : Quiet s (dirtyAppend s p name) := by
  unfold dirtyAppend
  split
  · exact ⟨rfl, rfl, rfl, rfl, rfl, rfl, rfl, id, id⟩
  next hmem =>
    split
    next hroom =>
      have sound {t : State} (ht : t.dirty = s.dirty ++ [name]) (hs : DirtySound s) : DirtySound t :=
        dirtySound_append hs (by simpa using hmem) hroom ht
      dsimp only
      split
      · exact ⟨rfl, rfl, rfl, rfl, rfl, rfl, rfl, sound rfl, fun h p => by cases p; exact h .A; exact h .B⟩
      · exact ⟨rfl, rfl, rfl, rfl, rfl, rfl, rfl, sound rfl, fun h p => by cases p; exact h .A; exact h .B⟩
    · exact ⟨rfl, rfl, rfl, rfl, rfl, rfl, rfl, id, fun h p => by cases p; exact h .A; exact h .B⟩

theorem quiet_setCombination (s : State) (level code : Nat) (x : StopSet) : Quiet s (setCombination s level code x) :=
  ⟨rfl, rfl, rfl, rfl, rfl, rfl, rfl, id, fun h p => by cases p; exact h .A; exact h .B⟩

theorem sounds_capture (s : State) (p : PortId) (code : Nat) : Sounds s (capture s p code) := by
  unfold capture
  dsimp only
  split
  · exact sounds_bump s _
  · exact (quiet_setCombination s _ _ _).sounds.quiet (quiet_dirtyAppend _ _ _)

theorem sounds_pistonMake (s : State) (p : PortId) (code : Nat) : Sounds s (pistonMake s p code) := by
  unfold pistonMake
  split
  · exact sounds_capture s p code
  · exact sounds_pistonAction s p code

theorem sounds_driveExpiry (s : State) (p : PortId) : Sounds s (driveExpiry s p) := by
  have checked (s : State) (n : Nat) : Sounds s (checkTab p s n) := by
    unfold checkTab
    split
    · exact (sounds_bump s _).quiet (quiet_raise _ _ _)
    · exact .refl
  have mismatched : Sounds s (mismatchCheck s p) := by
    unfold mismatchCheck
    split
    · exact .foldl checked _ s
    · exact .refl
  unfold driveExpiry
  dsimp only
  split
  · split
    · exact mismatched.trans (sounds_setRecall _ p _)
    · exact (mismatched.trans (sounds_setRecall _ p _)).trans (sounds_recallPress _ p _)
  · exact .refl

/-! ### The console links (R132 to R142) -/

theorem sounds_markAtBoundary (s : State) (p : PortId) : Sounds s (markAtBoundary s p) := by
  cases h : (portAt s p).receiver with
  | idle => rw [markAtBoundary_idle h]; exact .refl
  | waiting => rw [markAtBoundary_waiting h]; exact sounds_setPort s p
  | receiving taken =>
    rw [markAtBoundary_receiving h]
    exact (sounds_bump s _).quiet (quiet_setPort _ p (by cases p <;> exact id))

theorem sounds_startMarkArrives (s : State) (p : PortId) (bit : Fin 16) : Sounds s (startMarkArrives s p bit) := by
  rcases startMarkArrives_cases s p bit with h | h
  · rw [h]; exact sounds_markAtBoundary s p
  · rw [h]; exact sounds_setPort s p

theorem sounds_goodFrame (s : State) (p : PortId) (data : List Word) : Sounds s (goodFrame s p data) := by
  unfold goodFrame
  dsimp only
  split
  · exact (((sounds_setPort s p).quiet (quiet_raise _ _ _)).trans (sounds_arrival _ p)).trans (sounds_walk _ p data)
  · exact sounds_setPort s p

theorem sounds_handOn (s : State) (p : PortId) (i b : Nat) (made : Bool) : Sounds s (handOn s p i b made) := by
  unfold handOn
  dsimp only
  split
  · split
    · exact sounds_keyMake s p _ _ _
    · exact sounds_keyBreak s p _ _ _
  · exact sounds_tabEvent s p _ _
  · split
    · exact sounds_pistonMake s p _
    · exact .refl
  · exact .refl
  · exact .refl

theorem sounds_takeContact (p : PortId) (data : List Word) (s : State) (x : Nat × Nat) :
    Sounds s (takeContact p data s x) := by
  unfold takeContact
  dsimp only
  split
  · exact .refl
  split
  · exact sounds_setPort s p
  split
  · exact (sounds_setPort s p).trans (sounds_handOn _ p _ _ _)
  · exact sounds_setPort s p

theorem sounds_judgeFrame (s : State) (p : PortId) (data : List Word) (check : Word) :
    Sounds s (judgeFrame s p data check) := by
  have online (s : State) : Sounds s (onlineFrame s p data) :=
    ((sounds_setPort s p).trans (.foldl (sounds_takeContact p data) _ _)).trans (sounds_walk _ p data)
  unfold judgeFrame validFrame
  dsimp only
  split
  · split
    · exact sounds_bump s _
    · exact (sounds_bump s _).trans (sounds_goodFrame _ p data)
    · exact (sounds_bump s _).trans (sounds_goodFrame _ p data)
    · exact (sounds_bump s _).trans (online _)
  · exact (sounds_bump s _).trans (sounds_setPort _ p)

theorem sounds_takeSlots (s : State) (p : PortId) (slots : List Word) : Sounds s (takeSlots s p slots) := by
  unfold takeSlots
  split
  · exact .refl
  · exact .refl
  · unfold receiveSlots
    dsimp only
    split
    · exact sounds_setPort s p
    · exact (sounds_setPort s p).trans (sounds_judgeFrame _ p _ _)

theorem sounds_slotsArrive (s : State) (p : PortId) (slots : List Word) : Sounds s (slotsArrive s p slots) := by
  unfold slotsArrive
  split
  · split
    · exact .refl
    · exact (((sounds_setPort s p).trans (sounds_takeSlots _ p _)).trans
        (sounds_markAtBoundary _ p)).trans (sounds_takeSlots _ p _)
  · exact sounds_takeSlots s p slots

theorem sounds_losePort (s : State) (p : PortId) : Sounds s (losePort s p) :=
  (((sounds_setPort s p).trans (sounds_setRecall _ p _)).release _).quiet (quiet_raise _ _ _)

/-! ### The registration writes (R10, R93, R117, R125) -/

theorem sounds_retireStop (s : State) (n : Nat) : Sounds s (retireStop s n) := by
  have retired : Sounds s (setStop (releaseRequest (undrive (undrive (setDrawn s (withBit s.drawn n false)) .A
      (BitVec.twoPow 256 n)) .B (BitVec.twoPow 256 n)) (.stop n)) n StopEntry.unset) :=
    ((((quiet_setDrawn s _).sounds.trans (sounds_undrive _ _ _)).trans (sounds_undrive _ _ _)).release _).quiet
      (quiet_setStop _ _ _)
  unfold retireStop
  dsimp only
  split
  · exact retired.quiet (quiet_retakeTremulant _ _)
  · exact retired

theorem sounds_rewriteStop (s : State) (n : Nat) (e : StopEntry) : Sounds s (rewriteStop s n e) := by
  have stored := (sounds_retireStop s n).quiet (quiet_setStop _ n e)
  unfold rewriteStop
  dsimp only
  split
  · exact stored.trans (sounds_comeOn _ _ _)
  · exact stored

theorem sounds_storeGrant (s : State) (d : Nat) (q : Option PortId) : Sounds s (storeGrant s d q) := by
  unfold storeGrant
  split
  · split
    · exact .refl
    · exact sounds_grantChange s d q
  · exact (quiet_registration s s.stops _ s.drawn s.tremulants s.expression s.runs s.crescendo).sounds

theorem sounds_storeCrescendo (s : State) (n : Nat) (x : StopSet) : Sounds s (storeCrescendo s n x) := by
  have stored : Sounds s (setCrescendo s n x) :=
    (quiet_registration s s.stops s.grants s.drawn s.tremulants s.expression s.runs _).sounds
  unfold storeCrescendo
  split
  · exact stored.trans (sounds_changeEffective _ _ _)
  · exact stored

theorem sounds_storeExpr (s : State) (n : Nat) (e : ExprEntry) : Sounds s (storeExpr s n e) := by
  have driven : Sounds s (driveToZero s n) := by
    unfold driveToZero
    split
    · exact sounds_setStage s n 0
    · exact .refl
  exact driven.quiet (quiet_registration _ _ _ _ _ _ _ _)

end Sys2Proof.Proofs.Playing
end

section
/-! PROOFS. The tremulant outputs and the stops (R86 to R89, R97, R116): what the effective set looks at, what a change
of the effective set does to the outputs, and that each event of the console and each registration write keeps
`RegistrationSound`. -/

namespace Sys2Proof.Proofs.Registration

open Sys2Proof.Machine Sys2Proof.Proofs.PortLoss Sys2Proof.Proofs.Steps

/-! ### What the effective set looks at (R86) -/

/-- The crescendo entry, its stage and its port are read from the expression list and the entries' stages alone. -/
theorem crescendo_congr {s t : State} (hexpr : t.expression = s.expression)
    (hstage : ∀ e, (runAt t e).stage = (runAt s e).stage) :
    crescendoEntry t = crescendoEntry s ∧ crescendoStage t = crescendoStage s ∧ crescendoPort t = crescendoPort s := by
  have hat (e : Nat) : exprAt t e = exprAt s e := by rw [exprAt, hexpr, exprAt]
  have hentry : crescendoEntry t = crescendoEntry s := by simp only [crescendoEntry, hat]
  refine ⟨hentry, ?_, ?_⟩
  · simp only [crescendoStage, hentry]
    cases crescendoEntry s with
    | none => rfl
    | some e => exact hstage e
  · simp only [crescendoPort, hentry, hat]

/-- A stop's effective state is read from its entry, its drawn state, its division's holder and the current stage's
record. -/
theorem effective_congr {s t : State} {n : Nat} (hdrawn : t.drawn.getLsbD n = s.drawn.getLsbD n)
    (hstop : stopAt t n = stopAt s n) (hgrants : t.grants = s.grants) (hcrescendo : t.crescendo = s.crescendo)
    (hstage : crescendoStage t = crescendoStage s) (hport : crescendoPort t = crescendoPort s) :
    effective t n = effective s n := by
  simp only [effective, effectsFixed, crescendoMember, crescendoAt, granting, hdrawn, hstop, hgrants, hcrescendo, hstage,
    hport]

/-- At stage 0 no stop is a member of the crescendo (R124). -/
theorem crescendoMember_of_stage_zero {s : State} (h : crescendoStage s = 0) (n : Nat) :
    crescendoMember s n = false := by
  simp [crescendoMember, crescendoAt, h]

/-- Without an entry the stage is 0 (R118). -/
theorem crescendoStage_of_none {s : State} (h : crescendoEntry s = none) : crescendoStage s = 0 := by
  simp only [crescendoStage, h]

theorem isCrescendoEntry_iff {e : ExprEntry} :
    isCrescendoEntry e = true ↔ e.enabled = true ∧ e.target = .crescendo := by
  simp [isCrescendoEntry]

theorem exprAt_beyond (s : State) {e : Nat} (h : 8 ≤ e) : exprAt s e = ExprEntry.unset := look_beyond _ _ h

theorem lt_of_isCrescendoEntry {s : State} {e : Nat} (h : isCrescendoEntry (exprAt s e) = true) : e < 8 := by
  by_contra hn
  rw [exprAt_beyond s (Nat.le_of_not_lt hn)] at h
  exact absurd h (by decide)

theorem isCrescendoEntry_of_crescendoEntry {s : State} {e : Nat} (h : crescendoEntry s = some e) :
    isCrescendoEntry (exprAt s e) = true :=
  List.find?_some (p := fun e => isCrescendoEntry (exprAt s e)) h

/-- The one enabled CRESCENDO entry is the one the list's search finds (R116). -/
theorem crescendoEntry_eq_some {s : State} (hone : OneCrescendoEntry s) {e : Nat}
    (h : isCrescendoEntry (exprAt s e) = true) : crescendoEntry s = some e := by
  cases hf : crescendoEntry s with
  | none =>
    have := List.find?_eq_none.mp hf e (List.mem_range.mpr (lt_of_isCrescendoEntry h))
    exact absurd h this
  | some f => rw [hone f e (isCrescendoEntry_of_crescendoEntry hf) h]

theorem crescendoEntry_eq_none_iff {s : State} :
    crescendoEntry s = none ↔ ∀ e, isCrescendoEntry (exprAt s e) = false := by
  constructor
  · intro h e
    by_contra hn
    have he := Bool.of_not_eq_false hn
    exact List.find?_eq_none.mp h e (List.mem_range.mpr (lt_of_isCrescendoEntry he)) he
  · intro h
    exact List.find?_eq_none.mpr fun e _ => by simp [h e]

theorem getLsbD_effectiveSet (s : State) (n : Nat) :
    (effectiveSet s).getLsbD n = (decide (n < 256) && effective s n) := by
  rw [effectiveSet, getLsbD_bitsOf, Bool.and_self]

/-! ### The same registration -/

/-- t has the tables, the drawn set, the stages, the tremulant outputs and the mode of s. -/
structure SameStops (s t : State) : Prop where
  ranks : t.ranks = s.ranks
  stops : t.stops = s.stops
  grants : t.grants = s.grants
  drawn : t.drawn = s.drawn
  tremulants : t.tremulants = s.tremulants
  expression : t.expression = s.expression
  stage : ∀ e, (runAt t e).stage = (runAt s e).stage
  crescendo : t.crescendo = s.crescendo
  mode : t.mode = s.mode

namespace SameStops

theorem refl (s : State) : SameStops s s := ⟨rfl, rfl, rfl, rfl, rfl, rfl, fun _ => rfl, rfl, rfl⟩

theorem trans {s t u : State} (h : SameStops s t) (k : SameStops t u) : SameStops s u where
  ranks := k.ranks.trans h.ranks
  stops := k.stops.trans h.stops
  grants := k.grants.trans h.grants
  drawn := k.drawn.trans h.drawn
  tremulants := k.tremulants.trans h.tremulants
  expression := k.expression.trans h.expression
  stage := fun e => (k.stage e).trans (h.stage e)
  crescendo := k.crescendo.trans h.crescendo
  mode := k.mode.trans h.mode

theorem foldl {α : Type} {f : State → α → State} (h : ∀ s a, SameStops s (f s a)) (xs : List α) (s : State) :
    SameStops s (xs.foldl f s) := by
  induction xs generalizing s with
  | nil => exact refl s
  | cons a t ih => exact (h s a).trans (ih _)

theorem rankAt_eq {s t : State} (h : SameStops s t) (r : Nat) : rankAt t r = rankAt s r := by
  rw [rankAt, h.ranks, rankAt]

theorem stopAt_eq {s t : State} (h : SameStops s t) (n : Nat) : stopAt t n = stopAt s n := by
  rw [stopAt, h.stops, stopAt]

theorem effective_eq {s t : State} (h : SameStops s t) (n : Nat) : effective t n = effective s n :=
  have hc := crescendo_congr h.expression h.stage
  effective_congr (by rw [h.drawn]) (h.stopAt_eq n) h.grants h.crescendo hc.2.1 hc.2.2

theorem effectiveSet_eq {s t : State} (h : SameStops s t) : effectiveSet t = effectiveSet s := by
  rw [effectiveSet, effectiveSet, funext h.effective_eq]

theorem tremulantNamed_eq {s t : State} (h : SameStops s t) (r : Nat) : tremulantNamed t r = tremulantNamed s r := by
  simp only [tremulantNamed, tremulantStop, h.stopAt_eq, h.effective_eq]

theorem keeps {s t : State} (h : SameStops s t) (hs : RegistrationSound s) : RegistrationSound t := by
  obtain ⟨hone, hfollow⟩ := hs
  refine ⟨?_, ?_⟩
  · simpa only [OneCrescendoEntry, exprAt, h.expression] using hone
  · intro hrun r
    rw [h.mode] at hrun
    simp only [h.tremulants, h.rankAt_eq, h.stopAt_eq, h.effective_eq]
    exact hfollow hrun r

end SameStops

theorem sameStops_of_tableFrame {s t : State} (h : TableFrame s t) : SameStops s t := by
  rw [TableFrame] at h
  rw [h]
  exact ⟨rfl, rfl, rfl, rfl, rfl, rfl, fun _ => rfl, rfl, rfl⟩

theorem sameStops_of_aside {s t : State} (h : Aside s t) : SameStops s t :=
  ⟨h.ranks, h.stops, h.grants, h.drawn, h.tremulants, h.expression, fun e => by rw [runAt, h.runs, runAt], h.crescendo,
    h.mode⟩

theorem sameStops_bump (s : State) (c : Counter) : SameStops s (bump s c) :=
  ⟨rfl, rfl, rfl, rfl, rfl, rfl, fun _ => rfl, rfl, rfl⟩

theorem sameStops_raise (s : State) (c : Cause) (d : Detail) : SameStops s (raise s c d) :=
  ⟨rfl, rfl, rfl, rfl, rfl, rfl, fun _ => rfl, rfl, rfl⟩

theorem sameStops_setPort (s : State) (p : PortId) (c : ConsolePort) : SameStops s (setPort s p c) := by
  cases p <;> exact ⟨rfl, rfl, rfl, rfl, rfl, rfl, fun _ => rfl, rfl, rfl⟩

theorem sameStops_setRun {s : State} {e : Nat} {r : ExprRun} (h : r.stage = (runAt s e).stage) :
    SameStops s (setRun s e r) := by
  refine ⟨rfl, rfl, rfl, rfl, rfl, rfl, fun f => ?_, rfl, rfl⟩
  rw [runAt_setRun]
  split
  · next hf => rw [h, hf.1]
  · rfl

/-! ### Claims and releases move no stop -/

theorem tableFrame_releaseRequest (s : State) (pat : Pattern) : TableFrame s (releaseRequest s pat) :=
  (evolves_releaseRequest s pat).frame

theorem tableFrame_claimRequest (s : State) (c : Claim) (rank pipe : Nat) :
    TableFrame s (claimRequest s c rank pipe) := by
  have asks (i : Nat) (r : Option Record) : TableFrame s (admissionRequest (setRecord s i r) i) :=
    TableFrame.trans (t := setRecord s i r) rfl (evolves_admissionRequest _ i).frame
  unfold claimRequest
  split
  · split
    · rfl
    · split
      · rfl
      · split
        · rfl
        · unfold joinClaim
          dsimp only
          split
          · exact asks _ _
          · rfl
  · split
    · rfl
    · split
      · rfl
      · exact asks _ _

theorem tableFrame_foldl {α : Type} {f : State → α → State} (h : ∀ s a, TableFrame s (f s a)) (xs : List α)
    (s : State) : TableFrame s (xs.foldl f s) := by
  induction xs generalizing s with
  | nil => rfl
  | cons a t ih => exact (h s a).trans (ih _)

theorem tableFrame_claimFor (s : State) (p : PortId) (d : Nat) (t : Touch) (k n : Nat) :
    TableFrame s (claimFor s p d t k n) := by
  unfold claimFor
  split
  · rfl
  · exact tableFrame_claimRequest s _ _ _

theorem tableFrame_claimHeldKeys (s : State) (n : Nat) : TableFrame s (claimHeldKeys s n) := by
  unfold claimHeldKeys
  dsimp only
  split
  · rfl
  · exact tableFrame_foldl (fun s k => tableFrame_claimFor s _ _ _ k n) _ s

theorem tableFrame_keyMake (s : State) (p : PortId) (d : Nat) (t : Touch) (k : Nat) :
    TableFrame s (keyMake s p d t k) := by
  unfold keyMake
  split
  · exact tableFrame_foldl (fun s n => tableFrame_claimFor s p d t k n) _ s
  · rfl

theorem tableFrame_keyBreak (s : State) (p : PortId) (d : Nat) (t : Touch) (k : Nat) :
    TableFrame s (keyBreak s p d t k) := by
  unfold keyBreak
  split
  · exact tableFrame_releaseRequest s _
  · rfl

theorem tableFrame_playHeldKeys (s : State) (p : PortId) (d : Nat) : TableFrame s (playHeldKeys s p d) := by
  have made (s : State) (t : Touch) (k : Nat) :
      TableFrame s (if keyMade (portAt s p) d t k then keyMake s p d t k else s) := by
    split
    · exact tableFrame_keyMake s p d t k
    · rfl
  exact tableFrame_foldl (fun s k => (made s .first k).trans (made _ .second k)) _ s

/-! ### The standing outputs (R97) -/

/-- A rank's output is due: it is TREMULANT and an effective TREMULANT stop names it (R97). -/
def DueOn (s : State) (r : Nat) : Prop :=
  (rankAt s r).kind = .tremulant
    ∧ ∃ n, n < 256 ∧ (stopAt s n).kind = .tremulant ∧ (stopAt s n).rank = r ∧ effective s n = true

theorem tremulantNamed_iff {s : State} {r : Nat} :
    tremulantNamed s r = true ↔
      ∃ n, n < 256 ∧ (stopAt s n).kind = .tremulant ∧ (stopAt s n).rank = r ∧ effective s n = true := by
  simp [tremulantNamed, tremulantStop, and_assoc]

/-- A rank that is due on is one of the sixty-four. -/
theorem lt_of_dueOn {s : State} {r : Nat} (h : DueOn s r) : r < 64 := by
  by_contra hn
  rw [DueOn, rankAt, look_beyond _ _ (Nat.le_of_not_lt hn)] at h
  exact absurd h.1 (by decide)

theorem getLsbD_retakeTremulant (s : State) (rank r : Nat) :
    (retakeTremulant s rank).tremulants.getLsbD r = true ↔
      if rank = r then s.mode = .run ∧ DueOn s r else s.tremulants.getLsbD r = true := by
  rw [retakeTremulant, setTremulant, getLsbD_withBit]
  by_cases h : rank = r
  · subst h
    by_cases hr : rank < 64
    · simp [hr, DueOn, ← tremulantNamed_iff, and_assoc]
    · have hdue : ¬ DueOn s rank := fun hd => hr (lt_of_dueOn hd)
      simp [hr, hdue, BitVec.getLsbD_of_ge s.tremulants rank (Nat.le_of_not_lt hr)]
  · simp [h]

/-- A retake looks at and leaves all but the outputs. -/
theorem dueOn_retakeTremulant (s : State) (rank r : Nat) : DueOn (retakeTremulant s rank) r ↔ DueOn s r := Iff.rfl

/-- Where every other output follows its stops, a retake brings the last one in step. -/
theorem follow_retakeTremulant {s : State} {rank : Nat}
    (h : s.mode = .run → ∀ r, r ≠ rank → (s.tremulants.getLsbD r = true ↔ DueOn s r)) :
    TremulantsFollowStops (retakeTremulant s rank) := by
  intro hrun r
  have hmode : s.mode = .run := hrun
  rw [getLsbD_retakeTremulant]
  by_cases hr : rank = r
  · simp only [hr, if_true, hmode, true_and]
    exact dueOn_retakeTremulant s r r
  · simp only [hr, if_false]
    exact h hmode r (Ne.symm hr)

theorem dueOn_congr {s t : State} (h : SameStops s t) (r : Nat) : DueOn t r ↔ DueOn s r := by
  simp only [DueOn, h.rankAt_eq, h.stopAt_eq, h.effective_eq]

/-! ### A change of the effective set (R87 to R89) -/

/-- What going off and coming on have in common: a TREMULANT stop's rank is retaken, and any other stop moves the
sounding table's frame alone. -/
def Turns (f : State → Nat → State) : Prop :=
  ∀ s n, if (stopAt s n).kind = .tremulant then f s n = retakeTremulant s (stopAt s n).rank else TableFrame s (f s n)

theorem turns_goOff : Turns goOff := by
  intro s n
  cases h : (stopAt s n).kind <;> simp only [reduceCtorEq, if_true, if_false, goOff, h]
  · rfl
  · exact tableFrame_releaseRequest s _
  · exact tableFrame_releaseRequest s _

theorem turns_comeOn (claims : Bool) : Turns (comeOn claims) := by
  have held (s : State) (n : Nat) : TableFrame s (if claims then claimHeldKeys s n else s) := by
    split
    · exact tableFrame_claimHeldKeys s n
    · rfl
  intro s n
  cases h : (stopAt s n).kind <;> simp only [reduceCtorEq, if_true, if_false, comeOn, h]
  · rfl
  · exact held s n
  · exact held s n

/-- t is s but for the outputs of tremulants, as far as the registration looks. -/
def ButTremulants (s t : State) : Prop :=
  SameStops s { t with tremulants := s.tremulants }

theorem ButTremulants.refl (s : State) : ButTremulants s s := SameStops.refl s

theorem ButTremulants.trans {s t u : State} (h : ButTremulants s t) (k : ButTremulants t u) : ButTremulants s u :=
  ⟨k.ranks.trans h.ranks, k.stops.trans h.stops, k.grants.trans h.grants, k.drawn.trans h.drawn, rfl,
    k.expression.trans h.expression, fun e => (k.stage e).trans (h.stage e), k.crescendo.trans h.crescendo,
    k.mode.trans h.mode⟩

theorem SameStops.butTremulants {s t : State} (h : SameStops s t) : ButTremulants s t :=
  ⟨h.ranks, h.stops, h.grants, h.drawn, rfl, h.expression, h.stage, h.crescendo, h.mode⟩

/-- The outputs are nothing the effective set or a due output looks at. -/
theorem ButTremulants.dueOn_iff {s t : State} (h : ButTremulants s t) (r : Nat) : DueOn t r ↔ DueOn s r :=
  dueOn_congr h r

theorem ButTremulants.stopAt_eq {s t : State} (h : ButTremulants s t) (n : Nat) : stopAt t n = stopAt s n :=
  SameStops.stopAt_eq h n

theorem ButTremulants.effective_eq {s t : State} (h : ButTremulants s t) (n : Nat) : effective t n = effective s n :=
  SameStops.effective_eq h n

theorem ButTremulants.mode_eq {s t : State} (h : ButTremulants s t) : t.mode = s.mode := h.mode

theorem butTremulants_retake (s : State) (rank : Nat) : ButTremulants s (retakeTremulant s rank) :=
  ⟨rfl, rfl, rfl, rfl, rfl, rfl, fun _ => rfl, rfl, rfl⟩

theorem Turns.butTremulants {f : State → Nat → State} (hf : Turns f) (s : State) (n : Nat) :
    ButTremulants s (f s n) := by
  have h := hf s n
  split at h
  · rw [h]; exact butTremulants_retake s _
  · exact (sameStops_of_tableFrame h).butTremulants

theorem Turns.butTremulants_foldl {f : State → Nat → State} (hf : Turns f) (xs : List Nat) (s : State) :
    ButTremulants s (xs.foldl f s) := by
  induction xs generalizing s with
  | nil => exact .refl s
  | cons n t ih => exact (hf.butTremulants s n).trans (ih _)

/-- A stop of a list is TREMULANT and names a rank. -/
def NamedIn (s : State) (xs : List Nat) (r : Nat) : Prop :=
  ∃ n ∈ xs, (stopAt s n).kind = .tremulant ∧ (stopAt s n).rank = r

/-- Over a list of stops, the outputs that its TREMULANT stops name are taken afresh and the others stand. -/
theorem Turns.tremulants_foldl {f : State → Nat → State} (hf : Turns f) (xs : List Nat) (s : State) (r : Nat) :
    (NamedIn s xs r → ((xs.foldl f s).tremulants.getLsbD r = true ↔ s.mode = .run ∧ DueOn s r))
      ∧ (¬ NamedIn s xs r → ((xs.foldl f s).tremulants.getLsbD r = true ↔ s.tremulants.getLsbD r = true)) := by
  induction xs generalizing s with
  | nil => exact ⟨fun ⟨n, hn, _⟩ => absurd hn List.not_mem_nil, fun _ => Iff.rfl⟩
  | cons n xs ih =>
    have hbut := hf.butTremulants s n
    have hnamed : NamedIn (f s n) xs r ↔ NamedIn s xs r := by simp only [NamedIn, hbut.stopAt_eq]
    have hhead := hf s n
    obtain ⟨hin, hout⟩ := ih (f s n)
    rw [hnamed, hbut.mode_eq, hbut.dueOn_iff] at hin
    rw [hnamed] at hout
    rw [List.foldl_cons]
    have hcons : NamedIn s (n :: xs) r ↔
        ((stopAt s n).kind = .tremulant ∧ (stopAt s n).rank = r) ∨ NamedIn s xs r := by
      simp [NamedIn]
    by_cases hlater : NamedIn s xs r
    · exact ⟨fun _ => hin hlater, fun hn => absurd (hcons.mpr (.inr hlater)) hn⟩
    rw [hcons, hout hlater]
    simp only [hlater, or_false]
    by_cases hkind : (stopAt s n).kind = .tremulant
    · rw [if_pos hkind] at hhead
      rw [hhead, getLsbD_retakeTremulant]
      by_cases hr : (stopAt s n).rank = r <;> simp [hkind, hr]
    · rw [if_neg hkind] at hhead
      rw [(sameStops_of_tableFrame hhead).tremulants]
      exact ⟨fun h => absurd h.1 hkind, fun _ => Iff.rfl⟩

theorem mem_members_diff {s : State} {before : StopSet} {n : Nat} :
    (n ∈ members (before &&& ~~~ effectiveSet s) ↔ n < 256 ∧ before.getLsbD n = true ∧ effective s n = false)
      ∧ (n ∈ members (effectiveSet s &&& ~~~ before) ↔ n < 256 ∧ effective s n = true ∧ before.getLsbD n = false) := by
  simp only [mem_members, BitVec.getLsbD_and, BitVec.getLsbD_not, getLsbD_effectiveSet]
  by_cases hn : n < 256
  · simp [hn]
  · simp [hn]

theorem butTremulants_changeEffective (claims : Bool) (before : StopSet) (s : State) :
    ButTremulants s (changeEffective claims before s) :=
  (turns_goOff.butTremulants_foldl _ s).trans ((turns_comeOn claims).butTremulants_foldl _ _)

/-- After a change of the effective set an output that a stop going off or coming on names is as it is due, and any other
as it was (R88, R89, R97). -/
theorem tremulants_changeEffective (claims : Bool) (before : StopSet) (s : State) (r : Nat) :
    ((∃ n, n < 256 ∧ before.getLsbD n ≠ effective s n ∧ (stopAt s n).kind = .tremulant ∧ (stopAt s n).rank = r) →
        ((changeEffective claims before s).tremulants.getLsbD r = true ↔ s.mode = .run ∧ DueOn s r))
      ∧ ((∀ n, n < 256 → (stopAt s n).kind = .tremulant → (stopAt s n).rank = r →
            before.getLsbD n = effective s n) →
        ((changeEffective claims before s).tremulants.getLsbD r = true ↔ s.tremulants.getLsbD r = true)) := by
  let off := members (before &&& ~~~ effectiveSet s)
  let on := members (effectiveSet s &&& ~~~ before)
  let u := off.foldl goOff s
  have hu : ButTremulants s u := turns_goOff.butTremulants_foldl off s
  obtain ⟨hoffin, hoffout⟩ := turns_goOff.tremulants_foldl off s r
  obtain ⟨honin, honout⟩ := (turns_comeOn claims).tremulants_foldl on u r
  have hnamed : NamedIn u on r ↔ NamedIn s on r := by simp only [NamedIn, hu.stopAt_eq]
  rw [hnamed, hu.mode_eq, hu.dueOn_iff] at honin
  rw [hnamed] at honout
  constructor
  · rintro ⟨n, hn, hne, hkind, hrank⟩
    by_cases hon : NamedIn s on r
    · exact honin hon
    · refine (honout hon).trans (hoffin ⟨n, mem_members_diff.1.mpr ⟨hn, ?_⟩, hkind, hrank⟩)
      have hnon : ¬ (effective s n = true ∧ before.getLsbD n = false) := fun h =>
        hon ⟨n, mem_members_diff.2.mpr ⟨hn, h⟩, hkind, hrank⟩
      cases hb : before.getLsbD n <;> cases he : effective s n <;> simp_all
  · intro h
    have hon : ¬ NamedIn s on r := by
      rintro ⟨n, hmem, hkind, hrank⟩
      obtain ⟨hn, he, hb⟩ := mem_members_diff.2.mp hmem
      rw [h n hn hkind hrank, he] at hb
      exact absurd hb (by decide)
    have hoff : ¬ NamedIn s off r := by
      rintro ⟨n, hmem, hkind, hrank⟩
      obtain ⟨hn, hb, he⟩ := mem_members_diff.1.mp hmem
      rw [h n hn hkind hrank, he] at hb
      exact absurd hb (by decide)
    exact (honout hon).trans (hoffout hoff)

theorem oneCrescendoEntry_congr {s t : State} (h : t.expression = s.expression) (hs : OneCrescendoEntry s) :
    OneCrescendoEntry t := by
  simpa only [OneCrescendoEntry, exprAt, h] using hs

/-- A change of the effective set from what it was in a sound state keeps the outputs in step, whatever has moved it but
the ranks, the stops, the expression list and the outputs themselves. -/
theorem registration_changeEffective {s u : State} (claims : Bool) (hs : RegistrationSound s) (hranks : u.ranks = s.ranks)
    (hstops : u.stops = s.stops) (htrem : u.tremulants = s.tremulants) (hexpr : u.expression = s.expression)
    (hmode : u.mode = s.mode) : RegistrationSound (changeEffective claims (effectiveSet s) u) := by
  obtain ⟨hone, hfollow⟩ := hs
  have hbut := butTremulants_changeEffective claims (effectiveSet s) u
  refine ⟨oneCrescendoEntry_congr (hbut.expression.trans hexpr) hone, fun hrun r => ?_⟩
  rw [hbut.mode_eq] at hrun
  obtain ⟨hmoved, hstands⟩ := tremulants_changeEffective claims (effectiveSet s) u r
  change _ ↔ DueOn (changeEffective claims (effectiveSet s) u) r
  rw [hbut.dueOn_iff]
  by_cases h : ∃ n, n < 256 ∧ (effectiveSet s).getLsbD n ≠ effective u n ∧ (stopAt u n).kind = .tremulant
      ∧ (stopAt u n).rank = r
  · rw [hmoved h]
    exact and_iff_right hrun
  · have hsame : ∀ n, n < 256 → (stopAt u n).kind = .tremulant → (stopAt u n).rank = r →
        (effectiveSet s).getLsbD n = effective u n := by
      intro n hn hkind hrank
      by_contra hne
      exact h ⟨n, hn, hne, hkind, hrank⟩
    rw [hstands hsame, htrem, hfollow (hmode ▸ hrun) r]
    have hrankAt : rankAt u r = rankAt s r := by rw [rankAt, hranks, rankAt]
    have hstopAt (n : Nat) : stopAt u n = stopAt s n := by rw [stopAt, hstops, stopAt]
    simp only [DueOn, hrankAt]
    refine and_congr_right fun _ => exists_congr fun n => and_congr_right fun hn => ?_
    rw [hstopAt]
    refine and_congr_right fun hkind => and_congr_right fun hrank => ?_
    rw [← hsame n hn (by rw [hstopAt, hkind]) (by rw [hstopAt, hrank]), getLsbD_effectiveSet]
    simp [hn]

end Sys2Proof.Proofs.Registration
end

section
/-! PROOFS. The console's events, the pistons, the Expression unit and the registration writes keep the tremulant outputs
in step with the stops, and the enabled CRESCENDO entry the only one (R97, R116): each operation said once. -/

namespace Sys2Proof.Proofs.Registration

open Sys2Proof.Machine Sys2Proof.Proofs.PortLoss

/-- t is sound in what the Registration and Expression units keep in step where s is. -/
def KeepsReg (s t : State) : Prop :=
  RegistrationSound s → RegistrationSound t

namespace KeepsReg

theorem refl (s : State) : KeepsReg s s := id

theorem trans {s t u : State} (h : KeepsReg s t) (k : KeepsReg t u) : KeepsReg s u := fun hs => k (h hs)

theorem foldl {α : Type} {f : State → α → State} (h : ∀ s a, KeepsReg s (f s a)) (xs : List α) (s : State) :
    KeepsReg s (xs.foldl f s) := by
  induction xs generalizing s with
  | nil => exact refl s
  | cons a t ih => exact (h s a).trans (ih _)

end KeepsReg

theorem keepsReg_of_sameStops {s t : State} (h : SameStops s t) : KeepsReg s t := h.keeps

theorem keepsReg_of_tableFrame {s t : State} (h : TableFrame s t) : KeepsReg s t := (sameStops_of_tableFrame h).keeps

theorem keepsReg_setPort (s : State) (p : PortId) (c : ConsolePort) : KeepsReg s (setPort s p c) :=
  (sameStops_setPort s p c).keeps

theorem keepsReg_bump (s : State) (c : Counter) : KeepsReg s (bump s c) := (sameStops_bump s c).keeps

theorem keepsReg_raise (s : State) (c : Cause) (d : Detail) : KeepsReg s (raise s c d) := (sameStops_raise s c d).keeps

/-! ### Tabs, pistons and the Expression unit -/

theorem keepsReg_redraw (s : State) (claims : Bool) (x : StopSet) :
    KeepsReg s (changeEffective claims (effectiveSet s) (setDrawn s x)) :=
  fun hs => registration_changeEffective claims hs rfl rfl rfl rfl rfl

theorem keepsReg_tabEvent (s : State) (p : PortId) (n : Nat) (made : Bool) : KeepsReg s (tabEvent s p n made) := by
  unfold tabEvent
  dsimp only
  split
  · exact .refl s
  split
  · exact keepsReg_bump s _
  split
  · exact .refl s
  split
  · exact .refl s
  · exact keepsReg_redraw s true _

theorem keepsReg_recallPress (s : State) (p : PortId) (code : Nat) : KeepsReg s (recallPress s p code).1 := by
  unfold recallPress
  dsimp only
  split
  · exact keepsReg_bump s _
  split
  · exact keepsReg_setPort s p _
  · exact (keepsReg_redraw s true _).trans (keepsReg_setPort _ p _)

theorem keepsReg_pistonAction (s : State) (p : PortId) (code : Nat) : KeepsReg s (pistonAction s p code).1 := by
  unfold pistonAction
  split
  · exact keepsReg_recallPress s p code
  split
  · exact keepsReg_setPort s p _
  split
  · exact keepsReg_setPort s p _
  · exact .refl s

theorem sameStops_dirtyAppend (s : State) (p : PortId) (name : Nat × Nat) : SameStops s (dirtyAppend s p name) := by
  unfold dirtyAppend
  split
  · exact .refl s
  · split
    · dsimp only
      split
      · exact ⟨rfl, rfl, rfl, rfl, rfl, rfl, fun _ => rfl, rfl, rfl⟩
      · exact ⟨rfl, rfl, rfl, rfl, rfl, rfl, fun _ => rfl, rfl, rfl⟩
    · exact ⟨rfl, rfl, rfl, rfl, rfl, rfl, fun _ => rfl, rfl, rfl⟩

theorem keepsReg_pistonMake (s : State) (p : PortId) (code : Nat) : KeepsReg s (pistonMake s p code) := by
  have captured : KeepsReg s (capture s p code) := by
    unfold capture
    dsimp only
    split
    · exact keepsReg_bump s _
    · have stored (x : StopSet) : SameStops s (setCombination s (portAt s p).level code x) :=
        ⟨rfl, rfl, rfl, rfl, rfl, rfl, fun _ => rfl, rfl, rfl⟩
      exact ((stored _).trans (sameStops_dirtyAppend _ p _)).keeps
  unfold pistonMake
  split
  · exact captured
  · exact keepsReg_pistonAction s p code

theorem keepsReg_driveExpiry (s : State) (p : PortId) : KeepsReg s (driveExpiry s p) := by
  have checked (s : State) (n : Nat) : KeepsReg s (checkTab p s n) := by
    unfold checkTab
    split
    · exact (keepsReg_bump s _).trans (keepsReg_raise _ _ _)
    · exact .refl s
  have mismatched : KeepsReg s (mismatchCheck s p) := by
    unfold mismatchCheck
    split
    · exact .foldl checked _ s
    · exact .refl s
  unfold driveExpiry
  dsimp only
  split
  · split
    · exact mismatched.trans (keepsReg_setPort _ p _)
    · exact (mismatched.trans (keepsReg_setPort _ p _)).trans (keepsReg_recallPress _ p _)
  · exact .refl s

/-- The stage of an entry that is not the crescendo is no business of the stops. -/
theorem effective_setRun_of_not_crescendo {s : State} {e : Nat} (h : isCrescendoEntry (exprAt s e) = false)
    (r : ExprRun) (n : Nat) : effective (setRun s e r) n = effective s n := by
  have hentry : crescendoEntry (setRun s e r) = crescendoEntry s := rfl
  have hstage : crescendoStage (setRun s e r) = crescendoStage s := by
    simp only [crescendoStage, hentry]
    cases hc : crescendoEntry s with
    | none => rfl
    | some f =>
      have hne : e ≠ f := by
        rintro rfl
        rw [isCrescendoEntry_of_crescendoEntry hc] at h
        exact absurd h (by decide)
      simp only [runAt_setRun, hne, false_and, if_false]
  exact effective_congr rfl rfl rfl rfl hstage rfl

theorem keepsReg_setStage (s : State) (e stage : Nat) : KeepsReg s (setStage s e stage) := by
  unfold setStage
  dsimp only
  split
  · exact fun hs => registration_changeEffective true hs rfl rfl rfl rfl rfl
  next h =>
    rintro ⟨hone, hfollow⟩
    refine ⟨hone, fun hrun r => ?_⟩
    simp only [effective_setRun_of_not_crescendo (Bool.of_not_eq_true h)]
    exact hfollow hrun r

/-- The fault check leaves the stage (R120). -/
theorem faultCheck_stage (e : ExprEntry) (r : ExprRun) (raw : Nat) : (faultCheck e r raw).1.stage = r.stage := by
  unfold faultCheck
  repeat' split
  all_goals rfl

/-- An entry after a value's fault check: the value kept, the check's run state stored, and the fault raised if there is
one (R119, R120). -/
def entryJudged (s : State) (e raw : Nat) : State :=
  let checked := faultCheck (exprAt s e) { runAt s e with lastValue := raw } raw
  if checked.2.2 then raise (setRun s e checked.1) .expressionFault (.number e) else setRun s e checked.1

/-- Work on an entry is the fault check, and a new stage where there is one (R119). -/
theorem workEntry_cases (s : State) (e raw : Nat) :
    workEntry s e raw = entryJudged s e raw ∨ ∃ stage, workEntry s e raw = setStage (entryJudged s e raw) e stage := by
  unfold workEntry
  dsimp only
  split
  · exact .inl rfl
  split
  · exact .inl rfl
  · exact .inr ⟨_, rfl⟩

theorem sameStops_entryJudged (s : State) (e raw : Nat) : SameStops s (entryJudged s e raw) := by
  have judged : SameStops s (setRun s e (faultCheck (exprAt s e) { runAt s e with lastValue := raw } raw).1) :=
    sameStops_setRun (faultCheck_stage _ _ _)
  unfold entryJudged
  dsimp only
  split
  · exact judged.trans (sameStops_raise _ _ _)
  · exact judged

theorem keepsReg_workEntry (s : State) (e raw : Nat) : KeepsReg s (workEntry s e raw) := by
  obtain h | ⟨stage, h⟩ := workEntry_cases s e raw
  · rw [h]; exact (sameStops_entryJudged s e raw).keeps
  · rw [h]; exact KeepsReg.trans (sameStops_entryJudged s e raw).keeps (keepsReg_setStage _ e stage)

theorem keepsReg_walk (s : State) (p : PortId) (data : List Word) : KeepsReg s (walk s p data) := by
  have from_ (left e : Nat) (s : State) : KeepsReg s (walkFrom p data left e s) := by
    induction left generalizing e s with
    | zero => exact .refl s
    | succ left ih =>
      unfold walkFrom
      dsimp only
      split
      · exact .refl s
      · refine KeepsReg.trans ?_ (ih _ _)
        split
        · exact keepsReg_workEntry s e _
        · exact .refl s
  exact from_ 8 0 s

/-! ### The console links -/

theorem keepsReg_arrival (s : State) (p : PortId) : KeepsReg s (arrival s p) := by
  refine (keepsReg_redraw s false _).trans (.foldl (fun s d => ?_) _ _)
  split
  · exact keepsReg_of_tableFrame (tableFrame_playHeldKeys s p d)
  · exact .refl s

theorem keepsReg_markAtBoundary (s : State) (p : PortId) : KeepsReg s (markAtBoundary s p) := by
  cases h : (portAt s p).receiver with
  | idle => rw [markAtBoundary_idle h]; exact .refl s
  | waiting => rw [markAtBoundary_waiting h]; exact keepsReg_setPort s p _
  | receiving taken =>
    rw [markAtBoundary_receiving h]
    exact (keepsReg_bump s _).trans (keepsReg_setPort _ p _)

theorem keepsReg_startMarkArrives (s : State) (p : PortId) (bit : Fin 16) : KeepsReg s (startMarkArrives s p bit) := by
  rcases startMarkArrives_cases s p bit with h | h
  · rw [h]; exact keepsReg_markAtBoundary s p
  · rw [h]; exact keepsReg_setPort s p _

theorem keepsReg_handOn (s : State) (p : PortId) (i b : Nat) (made : Bool) : KeepsReg s (handOn s p i b made) := by
  unfold handOn
  dsimp only
  split
  · split
    · exact keepsReg_of_tableFrame (tableFrame_keyMake s p _ _ _)
    · exact keepsReg_of_tableFrame (tableFrame_keyBreak s p _ _ _)
  · exact keepsReg_tabEvent s p _ _
  · split
    · exact keepsReg_pistonMake s p _
    · exact .refl s
  · exact .refl s
  · exact .refl s

theorem keepsReg_takeContact (p : PortId) (data : List Word) (s : State) (x : Nat × Nat) :
    KeepsReg s (takeContact p data s x) := by
  unfold takeContact
  dsimp only
  split
  · exact .refl s
  split
  · exact keepsReg_setPort s p _
  split
  · exact (keepsReg_setPort s p _).trans (keepsReg_handOn _ p _ _ _)
  · exact keepsReg_setPort s p _

theorem keepsReg_goodFrame (s : State) (p : PortId) (data : List Word) : KeepsReg s (goodFrame s p data) := by
  unfold goodFrame
  dsimp only
  split
  · exact (((keepsReg_setPort s p _).trans (keepsReg_raise _ _ _)).trans (keepsReg_arrival _ p)).trans
      (keepsReg_walk _ p data)
  · exact keepsReg_setPort s p _

theorem keepsReg_judgeFrame (s : State) (p : PortId) (data : List Word) (check : Word) :
    KeepsReg s (judgeFrame s p data check) := by
  have online (s : State) : KeepsReg s (onlineFrame s p data) :=
    ((keepsReg_setPort s p _).trans (.foldl (keepsReg_takeContact p data) _ _)).trans (keepsReg_walk _ p data)
  unfold judgeFrame validFrame
  dsimp only
  split
  · split
    · exact keepsReg_bump s _
    · exact (keepsReg_bump s _).trans (keepsReg_goodFrame _ p data)
    · exact (keepsReg_bump s _).trans (keepsReg_goodFrame _ p data)
    · exact (keepsReg_bump s _).trans (online _)
  · exact (keepsReg_bump s _).trans (keepsReg_setPort _ p _)

theorem keepsReg_takeSlots (s : State) (p : PortId) (slots : List Word) : KeepsReg s (takeSlots s p slots) := by
  unfold takeSlots
  split
  · exact .refl s
  · exact .refl s
  · unfold receiveSlots
    dsimp only
    split
    · exact keepsReg_setPort s p _
    · exact (keepsReg_setPort s p _).trans (keepsReg_judgeFrame _ p _ _)

theorem keepsReg_slotsArrive (s : State) (p : PortId) (slots : List Word) : KeepsReg s (slotsArrive s p slots) := by
  unfold slotsArrive
  split
  · split
    · exact .refl s
    · exact (((keepsReg_setPort s p _).trans (keepsReg_takeSlots _ p _)).trans
        (keepsReg_markAtBoundary _ p)).trans (keepsReg_takeSlots _ p _)
  · exact keepsReg_takeSlots s p slots

theorem keepsReg_losePort (s : State) (p : PortId) : KeepsReg s (losePort s p) :=
  (keepsReg_setPort s p _).trans (keepsReg_of_tableFrame (tableFrame_losePort s p))

/-! ### Grants and crescendo records (R93, R125) -/

theorem keepsReg_grantChange (s : State) (d : Nat) (q : Option PortId) : KeepsReg s (grantChange s d q) := by
  have released (s : State) (old : Option PortId) : SameStops s (releaseHolder s d old) := by
    cases old with
    | none => exact .refl s
    | some p => exact sameStops_of_tableFrame (tableFrame_releaseRequest s _)
  have undriven (s : State) (old : Option PortId) : SameStops s (undriveHolder s d old) := by
    cases old with
    | none => exact .refl s
    | some p => exact sameStops_setPort s p _
  have played (s : State) : KeepsReg s (playHolder s d q) := by
    cases q with
    | none => exact .refl s
    | some p => exact keepsReg_of_tableFrame (tableFrame_playHeldKeys s p d)
  have hleft := (released { s with grants := put s.grants d q } (granting s d)).trans (undriven _ (granting s d))
  refine KeepsReg.trans (fun hs => ?_) (played _)
  exact registration_changeEffective false hs hleft.ranks hleft.stops hleft.tremulants hleft.expression hleft.mode

/-- Outside RUN no output is looked at: a write that leaves the expression list keeps the registration sound. -/
theorem keepsReg_outside_run {s t : State} (hmode : t.mode ≠ .run) (hexpr : t.expression = s.expression) :
    KeepsReg s t :=
  fun hs => ⟨oneCrescendoEntry_congr hexpr hs.1, fun hrun => absurd hrun hmode⟩

theorem keepsReg_storeGrant (s : State) (d : Nat) (q : Option PortId) : KeepsReg s (storeGrant s d q) := by
  unfold storeGrant
  split
  · split
    · exact .refl s
    · exact keepsReg_grantChange s d q
  next h => exact keepsReg_outside_run h rfl

/-- A record that is not the current stage's is no business of the stops. -/
theorem effective_setCrescendo {s : State} {n : Nat} (hn : n ≠ 0) (h : crescendoStage s ≠ n) (x : StopSet) (m : Nat) :
    effective (setCrescendo s n x) m = effective s m := by
  have hrecord : crescendoAt (setCrescendo s n x) (crescendoStage s) = crescendoAt s (crescendoStage s) := by
    unfold crescendoAt
    split
    · rfl
    · exact look_put_ne _ _ _ (by omega)
  have hstage : crescendoStage (setCrescendo s n x) = crescendoStage s := rfl
  have hport : crescendoPort (setCrescendo s n x) = crescendoPort s := rfl
  have hgrant (d : Nat) : granting (setCrescendo s n x) d = granting s d := rfl
  simp only [effective, effectsFixed, crescendoMember, hstage, hport, hrecord, hgrant, stopAt_setCrescendo]
  rfl

theorem keepsReg_storeCrescendo (s : State) {n : Nat} (hn : n ≠ 0) (x : StopSet) :
    KeepsReg s (storeCrescendo s n x) := by
  unfold storeCrescendo
  split
  · exact fun hs => registration_changeEffective true hs rfl rfl rfl rfl rfl
  next h =>
    rintro ⟨hone, hfollow⟩
    refine ⟨hone, fun hrun r => ?_⟩
    have hother : crescendoStage s ≠ n := fun hc => h ⟨hrun, hc⟩
    simp only [effective_setCrescendo hn hother]
    exact hfollow hrun r

/-! ### Expression writes (R116, R117) -/

/-- Step 1 of an expression write leaves the entry at stage 0 in RUN. -/
theorem stage_driveToZero {s : State} (hrun : s.mode = .run) (n : Nat) : (runAt (driveToZero s n) n).stage = 0 := by
  have hset : (runAt (setRun s n { runAt s n with stage := 0 }) n).stage = 0 := by
    rw [runAt_setRun]
    split
    · rfl
    next h =>
      have hn : 8 ≤ n := by
        by_contra hlt
        exact h ⟨rfl, Nat.lt_of_not_le hlt⟩
      rw [runAt, look_beyond _ _ hn]
      rfl
  unfold driveToZero
  split
  · unfold setStage
    dsimp only
    split
    · exact ((butTremulants_changeEffective true (effectiveSet s) _).stage n).trans hset
    · exact hset
  next h =>
    by_contra hne
    exact h ⟨hrun, hne⟩

theorem expression_driveToZero (s : State) (n : Nat) :
    (driveToZero s n).expression = s.expression ∧ (driveToZero s n).mode = s.mode := by
  unfold driveToZero
  split
  · unfold setStage
    dsimp only
    split
    · have h := butTremulants_changeEffective true (effectiveSet s) (setRun s n { runAt s n with stage := 0 })
      exact ⟨h.expression, h.mode⟩
    · exact ⟨rfl, rfl⟩
  · exact ⟨rfl, rfl⟩

/-- The state with an expression entry replaced and its run state cleared (R117 step 2). -/
def entryStored (s : State) (n : Nat) (e : ExprEntry) : State :=
  setRun { s with expression := put s.expression n e } n ExprRun.clear

theorem exprAt_entryStored (s : State) (n f : Nat) (e : ExprEntry) :
    exprAt (entryStored s n e) f = if n = f ∧ n < 8 then e else exprAt s f := look_put _ _ _ _ _

theorem runAt_entryStored (s : State) (n f : Nat) (e : ExprEntry) :
    runAt (entryStored s n e) f = if n = f ∧ n < 8 then ExprRun.clear else runAt s f := look_put _ _ _ _ _

/-- An entry that is CRESCENDO and enabled is written only where no other is (check 3 of R116). -/
def NoSecondCrescendo (s : State) (n : Nat) (e : ExprEntry) : Prop :=
  isCrescendoEntry e = true → ∀ q, q ≠ n → isCrescendoEntry (exprAt s q) = false

theorem noSecondCrescendo_of_exprFault {s : State} {n : Nat} {e : ExprEntry} (h : exprFault s n e = none) :
    NoSecondCrescendo s n e := by
  intro he q hq
  by_contra hn
  have hc := Bool.of_not_eq_false hn
  have hany : ((List.range 8).any fun q => q != n && isCrescendoEntry (exprAt s q)) = true := by
    rw [List.any_eq_true]
    exact ⟨q, List.mem_range.mpr (lt_of_isCrescendoEntry hc), by simp [hq, hc]⟩
  unfold exprFault at h
  have hboth := And.intro he hany
  simp only [hboth, and_self, if_true] at h
  repeat' split at h
  all_goals exact absurd h (by simp)

section EntryStored

variable {s : State} {n : Nat} {e : ExprEntry} (hn : n < 8) (hsecond : NoSecondCrescendo s n e)
include hn hsecond

theorem oneCrescendoEntry_entryStored (hone : OneCrescendoEntry s) : OneCrescendoEntry (entryStored s n e) := by
  have only {f : Nat} (hf : isCrescendoEntry (exprAt (entryStored s n e) f) = true) (hne : n ≠ f) :
      isCrescendoEntry e = false ∧ isCrescendoEntry (exprAt s f) = true := by
    rw [exprAt_entryStored, if_neg (fun h => hne h.1)] at hf
    refine ⟨Bool.of_not_eq_true fun he => ?_, hf⟩
    rw [hsecond he f (Ne.symm hne)] at hf
    exact absurd hf (by decide)
  have written (h : isCrescendoEntry (exprAt (entryStored s n e) n) = true) : isCrescendoEntry e = true := by
    rwa [exprAt_entryStored, if_pos ⟨rfl, hn⟩] at h
  intro f g hf hg
  by_cases hfn : n = f
  · subst hfn
    by_contra hgn
    rw [(only hg hgn).1] at written
    exact absurd (written hf) (by decide)
  · by_cases hgn : n = g
    · subst hgn
      rw [(only hf hfn).1] at written
      exact absurd (written hg) (by decide)
    · exact hone f g (only hf hfn).2 (only hg hgn).2

/-- Where the written entry stood at stage 0 the stops are as effective as they were. -/
theorem effective_entryStored (hone : OneCrescendoEntry s) (hzero : (runAt s n).stage = 0) (m : Nat) :
    effective (entryStored s n e) m = effective s m := by
  have hone' := oneCrescendoEntry_entryStored hn hsecond hone
  have hmember : crescendoMember (entryStored s n e) m = crescendoMember s m := by
    have hentry {t : State} {f : Nat} (h : OneCrescendoEntry t) (hf : isCrescendoEntry (exprAt t f) = true) :
        crescendoStage t = (runAt t f).stage ∧ crescendoPort t = (exprAt t f).port := by
      have := crescendoEntry_eq_some h hf
      simp only [crescendoStage, crescendoPort, this, and_self]
    have idle {t : State} (h : OneCrescendoEntry t) (hz : (runAt t n).stage = 0)
        (honly : ∀ f, f ≠ n → isCrescendoEntry (exprAt t f) = false) : crescendoMember t m = false := by
      refine crescendoMember_of_stage_zero ?_ m
      by_cases hc : isCrescendoEntry (exprAt t n) = true
      · rw [(hentry h hc).1, hz]
      · refine crescendoStage_of_none (crescendoEntry_eq_none_iff.mpr fun f => ?_)
        by_cases hf : f = n
        · rw [hf]; exact Bool.of_not_eq_true hc
        · exact honly f hf
    by_cases hother : ∃ f, f ≠ n ∧ isCrescendoEntry (exprAt s f) = true
    · obtain ⟨f, hf, hc⟩ := hother
      have hat : exprAt (entryStored s n e) f = exprAt s f := by
        rw [exprAt_entryStored, if_neg (fun h => hf h.1.symm)]
      have hrun : runAt (entryStored s n e) f = runAt s f := by
        rw [runAt_entryStored, if_neg (fun h => hf h.1.symm)]
      obtain ⟨hstage, hport⟩ := hentry hone hc
      obtain ⟨hstage', hport'⟩ := hentry hone' (by rw [hat]; exact hc)
      rw [hrun] at hstage'
      rw [hat] at hport'
      have hs := hstage'.trans hstage.symm
      have hp := hport'.trans hport.symm
      unfold crescendoMember
      rw [hs, hp]
      rfl
    · have honly : ∀ f, f ≠ n → isCrescendoEntry (exprAt s f) = false := fun f hf =>
        Bool.of_not_eq_true fun hc => hother ⟨f, hf, hc⟩
      rw [idle hone hzero honly]
      refine idle hone' ?_ fun f hf => ?_
      · rw [runAt_entryStored, if_pos ⟨rfl, hn⟩]
        rfl
      · rw [exprAt_entryStored, if_neg (fun h => hf h.1.symm)]
        exact honly f hf
  unfold effective
  rw [hmember]
  rfl

theorem keepsReg_entryStored (hzero : s.mode = .run → (runAt s n).stage = 0) :
    KeepsReg s (entryStored s n e) := by
  rintro ⟨hone, hfollow⟩
  refine ⟨oneCrescendoEntry_entryStored hn hsecond hone, fun hrun r => ?_⟩
  have hrun' : s.mode = .run := hrun
  simp only [effective_entryStored hn hsecond hone (hzero hrun')]
  exact hfollow hrun r

theorem keepsReg_storeExpr : KeepsReg s (storeExpr s n e) := by
  obtain ⟨hexpr, hmode⟩ := expression_driveToZero s n
  have driven : KeepsReg s (driveToZero s n) := by
    unfold driveToZero
    split
    · exact keepsReg_setStage s n 0
    · exact .refl s
  refine driven.trans (keepsReg_entryStored hn ?_ fun hrun => ?_)
  · simpa only [NoSecondCrescendo, exprAt, hexpr] using hsecond
  · exact stage_driveToZero (hmode ▸ hrun) n

end EntryStored

/-! ### Rank and stop writes (R5, R10, R11) -/

theorem keepsReg_storeRank (s : State) (r : Nat) (e : RankEntry) : KeepsReg s (storeRank s r e) := by
  unfold storeRank
  dsimp only
  split
  next hmode =>
    rintro ⟨hone, hfollow⟩
    refine ⟨hone, follow_retakeTremulant fun hrun q hq => ?_⟩
    have hat : rankAt { s with ranks := put s.ranks r e } q = rankAt s q := look_put_ne _ _ _ (Ne.symm hq)
    rw [DueOn, hat]
    exact hfollow hmode q
  next hmode => exact keepsReg_outside_run hmode rfl

/-- Only stop `n`'s entry and drawn state set t apart from s, as far as the stops go. -/
structure ButStop (n : Nat) (s t : State) : Prop where
  ranks : t.ranks = s.ranks
  stops : ∀ m, m ≠ n → stopAt t m = stopAt s m
  effective : ∀ m, m ≠ n → effective t m = effective s m

/-- An output that stop `n` names in neither state is due in the one as in the other. -/
theorem ButStop.dueOn_iff {n r : Nat} {s t : State} (h : ButStop n s t)
    (hs : (stopAt s n).kind = .tremulant → (stopAt s n).rank = r → Machine.effective s n = false)
    (ht : (stopAt t n).kind = .tremulant → (stopAt t n).rank = r → Machine.effective t n = false) :
    DueOn t r ↔ DueOn s r := by
  have hat : rankAt t r = rankAt s r := by rw [rankAt, h.ranks, rankAt]
  unfold DueOn
  rw [hat]
  refine and_congr_right fun _ => exists_congr fun m => and_congr_right fun _ => ?_
  by_cases hm : m = n
  · subst hm
    constructor
    · rintro ⟨hk, hr, he⟩
      rw [ht hk hr] at he
      exact absurd he (by decide)
    · rintro ⟨hk, hr, he⟩
      rw [hs hk hr] at he
      exact absurd he (by decide)
  · rw [h.stops m hm, h.effective m hm]

/-- The state in which a stop to be rewritten is undrawn, undriven, released and UNUSED (R10). -/
def stopReleased (s : State) (n : Nat) : State :=
  setStop (releaseRequest (undrive (undrive (setDrawn s (withBit s.drawn n false)) .A (BitVec.twoPow 256 n)) .B
    (BitVec.twoPow 256 n)) (.stop n)) n StopEntry.unset

theorem retireStop_eq (s : State) (n : Nat) :
    retireStop s n = if (stopAt s n).kind = .tremulant then retakeTremulant (stopReleased s n) (stopAt s n).rank
      else stopReleased s n := rfl

/-- Undrawn, undriven and released, the state differs in the drawn set alone, as far as the stops go. -/
theorem sameStops_undrawn (s : State) (n : Nat) :
    SameStops (setDrawn s (withBit s.drawn n false))
      (releaseRequest (undrive (undrive (setDrawn s (withBit s.drawn n false)) .A (BitVec.twoPow 256 n)) .B
        (BitVec.twoPow 256 n)) (.stop n)) :=
  ((sameStops_setPort _ .A _).trans (sameStops_setPort _ .B _)).trans
    (sameStops_of_tableFrame (tableFrame_releaseRequest _ _))

theorem effective_setStop_ne (s : State) {n m : Nat} (h : m ≠ n) (e : StopEntry) :
    effective (setStop s n e) m = effective s m := by
  have hat : stopAt (setStop s n e) m = stopAt s m := by rw [stopAt_setStop, if_neg (fun hc => h hc.1.symm)]
  exact effective_congr rfl hat rfl rfl rfl rfl

theorem butStop_setStop (s : State) (n : Nat) (e : StopEntry) : ButStop n s (setStop s n e) :=
  ⟨rfl, fun m hm => by rw [stopAt_setStop, if_neg (fun hc => hm hc.1.symm)], fun m hm => effective_setStop_ne s hm e⟩

theorem butStop_stopReleased (s : State) (n : Nat) : ButStop n s (stopReleased s n) := by
  have h := sameStops_undrawn s n
  refine ⟨h.ranks, fun m hm => ?_, fun m hm => ?_⟩
  · rw [stopReleased, stopAt_setStop, if_neg (fun hc => hm hc.1.symm), h.stopAt_eq]
    rfl
  · rw [stopReleased, effective_setStop_ne _ hm, h.effective_eq]
    refine effective_congr ?_ rfl rfl rfl rfl rfl
    rw [setDrawn_drawn, getLsbD_withBit, if_neg (fun hc => hm hc.1.symm)]

theorem stopAt_stopReleased {n : Nat} (s : State) (hn : n < 256) : stopAt (stopReleased s n) n = StopEntry.unset := by
  rw [stopReleased, stopAt_setStop, if_pos ⟨rfl, hn⟩]

section RewriteStop

variable {s : State} {n : Nat} (hn : n < 256)
include hn

theorem keepsReg_retireStop : KeepsReg s (retireStop s n) := by
  have hsame := sameStops_undrawn s n
  have hbut := butStop_stopReleased s n
  have hunset : ¬ (stopAt (stopReleased s n) n).kind = .tremulant := by
    rw [stopAt_stopReleased s hn]
    decide
  rintro ⟨hone, hfollow⟩
  have hone' : OneCrescendoEntry (stopReleased s n) := oneCrescendoEntry_congr hsame.expression hone
  have hstands (hrun : (stopReleased s n).mode = .run) (r : Nat)
      (hr : (stopAt s n).kind = .tremulant → (stopAt s n).rank ≠ r) :
      (stopReleased s n).tremulants.getLsbD r = true ↔ DueOn (stopReleased s n) r := by
    rw [hbut.dueOn_iff (fun hk he => absurd he (hr hk)) (fun hk => absurd hk hunset)]
    have htrem : (stopReleased s n).tremulants = s.tremulants := hsame.tremulants
    rw [htrem]
    exact hfollow (hsame.mode.symm.trans hrun) r
  rw [retireStop_eq]
  split
  · exact ⟨hone', follow_retakeTremulant fun hrun r hr => hstands hrun r fun _ => Ne.symm hr⟩
  next hkind => exact ⟨hone', fun hrun r => hstands hrun r fun hk => absurd hk hkind⟩

/-- A stop retired is UNUSED. -/
theorem stopAt_retireStop : stopAt (retireStop s n) n = StopEntry.unset := by
  rw [retireStop_eq]
  split <;> exact stopAt_stopReleased s hn

theorem keepsReg_rewriteStop (e : StopEntry) : KeepsReg s (rewriteStop s n e) := by
  refine (keepsReg_retireStop hn).trans ?_
  rintro ⟨hone, hfollow⟩
  let u := setStop (retireStop s n) n e
  have hunset : ¬ (stopAt (retireStop s n) n).kind = .tremulant := by
    rw [stopAt_retireStop hn]
    decide
  have hat : stopAt u n = e := by rw [stopAt_setStop, if_pos ⟨rfl, hn⟩]
  have hstands (hrun : u.mode = .run) (r : Nat) (hr : e.kind = .tremulant → e.rank = r → effective u n = false) :
      u.tremulants.getLsbD r = true ↔ DueOn u r := by
    rw [(butStop_setStop (retireStop s n) n e).dueOn_iff (fun hk => absurd hk hunset) (by rw [← hat] at hr; exact hr)]
    exact hfollow hrun r
  change RegistrationSound (if effective u n then comeOn true u n else u)
  split
  next heff =>
    have hturn := turns_comeOn true u n
    rw [hat] at hturn
    split at hturn
    · rw [hturn]
      exact ⟨hone, follow_retakeTremulant fun hrun r hr => hstands hrun r fun _ he => absurd he.symm hr⟩
    next hkind =>
      exact keepsReg_of_tableFrame hturn ⟨hone, fun hrun r => hstands hrun r fun hk => absurd hk hkind⟩
  next heff => exact ⟨hone, fun hrun r => hstands hrun r fun _ _ => Bool.of_not_eq_true heff⟩

end RewriteStop

/-! ### START (R164) -/

theorem sameStops_startLinks (s : State) : SameStops s (four.foldl startLink s) := by
  refine .foldl (fun s l => ?_) _ s
  unfold startLink
  split
  · exact ⟨rfl, rfl, rfl, rfl, rfl, rfl, fun _ => rfl, rfl, rfl⟩
  · exact .refl s

/-- START leaves no TREMULANT stop effective: the drawn set is off and every stage at 0. -/
theorem keepsReg_startRun (s : State) : KeepsReg s (startRun s) := by
  rintro ⟨hone, -⟩
  unfold startRun
  refine (sameStops_startLinks _).keeps ⟨hone, fun _ r => ?_⟩
  constructor
  · intro h
    simp at h
  · rintro ⟨-, n, -, hkind, -, heff⟩
    have hstage (u : State) (hu : u.runs = Vector.replicate 8 ExprRun.clear) : crescendoStage u = 0 := by
      unfold crescendoStage
      split
      · rfl
      · rw [runAt, hu, look_replicate]
        split <;> rfl
    rw [effective, crescendoMember_of_stage_zero (hstage _ rfl)] at heff
    simp [effectsFixed] at heff
    exact absurd (hkind.symm.trans heff.1) (by decide)

end Sys2Proof.Proofs.Registration
end

section
/-! PROOFS. Each rail's draw is the sum of its records' charges (R68): a change at one index moves the draw as it moves the
charge, and so every operation of the allocator and of the sounding table keeps `DrawSound`. -/

namespace Sys2Proof.Proofs.Draw

open Sys2Proof.Machine Sys2Proof.Proofs.Playing

/-! ### Sums that differ at one place -/

/-- Two sums over a range whose terms differ at place `i` alone. -/
theorem sum_range_update {f g : Nat → Nat} {n i : Nat} (hi : i < n) (h : ∀ j, j ≠ i → g j = f j) :
    ((List.range n).map g).sum + f i = ((List.range n).map f).sum + g i := by
  induction n with
  | zero => exact absurd hi (Nat.not_lt_zero i)
  | succ n ih =>
    rw [List.range_succ, List.map_append, List.sum_append, List.map_append, List.sum_append]
    simp only [List.map_cons, List.map_nil, List.sum_cons, List.sum_nil]
    by_cases hin : i = n
    · subst hin
      have hbelow : (List.range i).map g = (List.range i).map f :=
        List.map_congr_left fun j hj => h j (by have := List.mem_range.mp hj; omega)
      rw [hbelow]
      omega
    · have := ih (by omega)
      rw [h n (Ne.symm hin)]
      omega

theorem le_sum_range {f : Nat → Nat} {n i : Nat} (hi : i < n) : f i ≤ ((List.range n).map f).sum :=
  List.le_sum_of_mem (List.mem_map.mpr ⟨i, List.mem_range.mpr hi, rfl⟩)

/-! ### A rail's charges, index by index -/

/-- What index `i` adds to the charges of rail `k`. -/
def chargeIn (s : State) (k i : Nat) : Nat :=
  match recordAt s i with
  | none => 0
  | some r => if railOf s r = k then r.charge else 0

theorem chargeSum_eq (s : State) (k : Nat) : chargeSum s k = ((List.range 448).map (chargeIn s k)).sum := rfl

theorem chargeIn_none {s : State} {i : Nat} (h : recordAt s i = none) (k : Nat) : chargeIn s k i = 0 := by
  simp only [chargeIn, h]

theorem chargeIn_some {s : State} {i : Nat} {r : Record} (h : recordAt s i = some r) (k : Nat) :
    chargeIn s k i = if railOf s r = k then r.charge else 0 := by
  simp only [chargeIn, h]

theorem railOf_congr {s t : State} (h : t.ranks = s.ranks) (r : Record) : railOf t r = railOf s r := by
  rw [railOf, rankAt, h, railOf, rankAt]

theorem chargeIn_congr {s t : State} {i : Nat} (hranks : t.ranks = s.ranks) (h : recordAt t i = recordAt s i) (k : Nat) :
    chargeIn t k i = chargeIn s k i := by
  simp only [chargeIn, h, railOf_congr hranks]

/-- What an index adds is no more than the draw. -/
theorem chargeIn_le_draw {s : State} (hs : DrawSound s) {k : Nat} (hk : k < 4) {i : Nat} (hi : i < 448) :
    chargeIn s k i ≤ (railAt s k).draw := by
  rw [hs.1 k hk, chargeSum_eq]
  exact le_sum_range hi

/-! ### Changes that keep the draws -/

/-- The draws of t are the sums of its charges where those of s are. -/
def KeepsDraw (s t : State) : Prop :=
  DrawSound s → DrawSound t

namespace KeepsDraw

theorem refl (s : State) : KeepsDraw s s := id

theorem trans {s t u : State} (h : KeepsDraw s t) (k : KeepsDraw t u) : KeepsDraw s u := fun hs => k (h hs)

theorem foldl {α : Type} {f : State → α → State} (h : ∀ s a, KeepsDraw s (f s a)) (xs : List α) (s : State) :
    KeepsDraw s (xs.foldl f s) := by
  induction xs generalizing s with
  | nil => exact refl s
  | cons a t ih => exact (h s a).trans (ih _)

end KeepsDraw

/-- At one index, a change of charge moves the draws by as much; everywhere else the records stand. -/
theorem keepsDraw_at {s t : State} {i : Nat} (hi : i < 448) (hranks : t.ranks = s.ranks)
    (hrec : ∀ j, j ≠ i → recordAt t j = recordAt s j)
    (hdraw : DrawSound s → ∀ k, k < 4 → (railAt t k).draw + chargeIn s k i = (railAt s k).draw + chargeIn t k i) :
    KeepsDraw s t := by
  intro hs
  refine ⟨fun k hk => ?_, fun r => ?_⟩
  · have hsum := sum_range_update (f := chargeIn s k) (g := chargeIn t k) hi
      fun j hj => chargeIn_congr hranks (hrec j hj) k
    have hmove := hdraw hs k hk
    have hbefore := hs.1 k hk
    rw [chargeSum_eq] at hbefore ⊢
    omega
  · rw [rankAt, hranks]
    exact hs.2 r

/-- The records and the draws stand. -/
theorem keepsDraw_of_same {s t : State} (hranks : t.ranks = s.ranks) (htable : t.table = s.table)
    (hdraw : ∀ k, k < 4 → (railAt t k).draw = (railAt s k).draw) : KeepsDraw s t := by
  have hrec (j : Nat) : recordAt t j = recordAt s j := by rw [recordAt, htable, recordAt]
  refine keepsDraw_at (i := 0) (by decide) hranks (fun j _ => hrec j) fun _ k hk => ?_
  rw [hdraw k hk, chargeIn_congr hranks (hrec 0)]

theorem keepsDraw_setRail {s : State} {j : Nat} {r : Rail} (h : r.draw = (railAt s j).draw := by rfl) :
    KeepsDraw s (setRail s j r) := by
  refine keepsDraw_of_same rfl rfl fun k _ => ?_
  rw [railAt_setRail]
  split
  · next hk => rw [h, hk.1]
  · rfl

theorem keepsDraw_bump (s : State) (c : Counter) : KeepsDraw s (bump s c) := keepsDraw_of_same rfl rfl fun _ _ => rfl

theorem keepsDraw_raise (s : State) (c : Cause) (d : Detail) : KeepsDraw s (raise s c d) :=
  keepsDraw_of_same rfl rfl fun _ _ => rfl

/-- A record stored over one of its rank. -/
theorem keepsDraw_storeRecord {s : State} {i : Nat} {x r : Record} (h : recordAt s i = some x) (hrank : r.rank = x.rank := by rfl) :
    KeepsDraw s (storeRecord s i r) := by
  have hi := recordAt_lt h
  have hrail : railOf s r = railOf s x := by rw [railOf, railOf, hrank]
  refine keepsDraw_at hi rfl (fun j hj => ?_) fun hs k hk => ?_
  · rw [recordAt_storeRecord, if_neg (fun hc => hj hc.1.symm)]
  · have hle := chargeIn_le_draw hs hk hi
    have hstored : recordAt (storeRecord s i r) i = some r := by rw [recordAt_storeRecord, if_pos ⟨rfl, hi⟩]
    have hcharge : chargeAt s i = x.charge := by simp only [chargeAt, h]
    have hrail' : railOf (storeRecord s i r) r = railOf s x := hrail
    rw [chargeIn_some hstored, railAt_storeRecord s i k r hk, hrail', hrail]
    rw [chargeIn_some h] at hle ⊢
    split at hle
    next hk' => simp only [hk', if_true, hcharge]; omega
    next hk' => simp only [hk', if_false]

/-- A record changed in place at its rank and charge. -/
theorem keepsDraw_setRecord {s : State} {i : Nat} {x r : Record} (h : recordAt s i = some x) (hrank : r.rank = x.rank := by rfl)
    (hcharge : r.charge = x.charge := by rfl) : KeepsDraw s (setRecord s i (some r)) := by
  have hi := recordAt_lt h
  refine keepsDraw_at hi rfl (fun j hj => ?_) fun _ k _ => ?_
  · rw [recordAt_setRecord, if_neg (fun hc => hj hc.1.symm)]
  · have hset : recordAt (setRecord s i (some r)) i = some r := by rw [recordAt_setRecord, if_pos ⟨rfl, hi⟩]
    rw [chargeIn_some h, chargeIn_some hset, railOf_congr (s := s) rfl, hcharge]
    simp only [railOf, hrank]
    rfl

/-- A record of charge 0 at a FREE index. -/
theorem keepsDraw_setRecord_free {s : State} {i : Nat} {r : Record} (hi : i < 448) (h : recordAt s i = none)
    (hcharge : r.charge = 0) : KeepsDraw s (setRecord s i (some r)) := by
  refine keepsDraw_at hi rfl (fun j hj => ?_) fun _ k _ => ?_
  · rw [recordAt_setRecord, if_neg (fun hc => hj hc.1.symm)]
  · have hset : recordAt (setRecord s i (some r)) i = some r := by rw [recordAt_setRecord, if_pos ⟨rfl, hi⟩]
    rw [chargeIn_none h, chargeIn_some hset, hcharge, ite_self]
    rfl

theorem keepsDraw_freeRecord (s : State) (i : Nat) : KeepsDraw s (freeRecord s i) := by
  cases h : recordAt s i with
  | none =>
    unfold freeRecord
    rw [h]
    exact .refl s
  | some x =>
    have hi := recordAt_lt h
    have hranks : (freeRecord s i).ranks = s.ranks := (evolves_freeRecord s i).rank
    refine keepsDraw_at hi hranks (fun j hj => ?_) fun hs k hk => ?_
    · rw [recordAt_freeRecord, if_neg (Ne.symm hj)]
    · have hle := chargeIn_le_draw hs hk hi
      have hfree : recordAt (freeRecord s i) i = none := by rw [recordAt_freeRecord, if_pos rfl]
      rw [chargeIn_none hfree, railAt_freeRecord s h k hk]
      rw [chargeIn_some h] at hle ⊢
      split at hle
      next hk' => simp only [hk', if_true]; omega
      next hk' => simp only [hk', if_false]

/-! ### The supply allocator (R70 to R75) -/

theorem keepsDraw_judgeStrain (s : State) (k : Nat) : KeepsDraw s (judgeStrain s k) :=
  keepsDraw_setRail

theorem rank_energize (e : RankEntry) (r : Record) : (energize e r).rank = r.rank := (movedOn_energize e r).1

theorem keepsDraw_admitRecord {s : State} {i : Nat} {x r : Record} (h : recordAt s i = some x) (hrank : r.rank = x.rank := by rfl) :
    KeepsDraw s (admitRecord s i r) :=
  (keepsDraw_storeRecord h ((rank_energize _ r).trans hrank)).trans (keepsDraw_judgeStrain _ _)

theorem keepsDraw_admissionRequest (s : State) (i : Nat) : KeepsDraw s (admissionRequest s i) := by
  unfold admissionRequest
  cases h : recordAt s i with
  | none => exact .refl s
  | some r =>
    dsimp only
    split
    · exact keepsDraw_admitRecord h
    · refine KeepsDraw.trans (t := storeRecord s i (waitFor (railAt s (railOf s r)) r)) (keepsDraw_storeRecord h) ?_
      refine KeepsDraw.trans (keepsDraw_setRail ?_) (keepsDraw_of_same rfl rfl fun _ _ => rfl)
      rfl

theorem keepsDraw_headPass (k fuel : Nat) (s : State) : KeepsDraw s (headPass k fuel s) := by
  induction fuel generalizing s with
  | zero => exact .refl s
  | succ fuel ih =>
    unfold headPass
    split
    · exact .refl s
    · split
      · exact .refl s
      next i rest _ _ r hr =>
        split
        · exact ((keepsDraw_setRail (r := { railAt s k with deferred := rest }) rfl).trans
            (keepsDraw_admitRecord (x := r) hr)).trans (ih _)
        · exact .refl s

theorem keepsDraw_allocatorWork (s : State) (k : Nat) : KeepsDraw s (allocatorWork s k) := by
  have resumed (s : State) (i : Nat) : KeepsDraw s (resumeAt k s i) := by
    unfold resumeAt
    cases h : recordAt s i with
    | none => exact .refl s
    | some r =>
      dsimp only
      split
      · exact (keepsDraw_setRecord (r := { r with paused := false }) h).trans (keepsDraw_admissionRequest _ i)
      · exact .refl s
  have passed := (keepsDraw_judgeStrain s k).trans (keepsDraw_headPass k (railAt (judgeStrain s k) k).deferred.length _)
  unfold allocatorWork
  dsimp only
  split
  · exact passed.trans (.foldl resumed _ _)
  · exact passed

theorem keepsDraw_workIfFell (s t : State) (k : Nat) : KeepsDraw t (workIfFell s t k) := by
  unfold workIfFell
  split
  · exact keepsDraw_allocatorWork t k
  · exact .refl t

/-! ### The sounding table (R23 to R28) -/

theorem keepsDraw_claimRequest (s : State) (c : Claim) (rank pipe : Nat) :
    KeepsDraw s (claimRequest s c rank pipe) := by
  have flagged (c : Counter) (a : Cause) (d : Detail) : KeepsDraw s (raise (bump s c) a d) :=
    (keepsDraw_bump s c).trans (keepsDraw_raise _ a d)
  unfold claimRequest
  split
  · split
    · exact .refl s
    next r hr =>
      split
      · exact keepsDraw_of_same rfl rfl fun _ _ => rfl
      split
      · exact flagged _ _ _
      · have hjoined := keepsDraw_setRecord (r := joined r c) hr
        unfold joinClaim
        dsimp only
        split
        · exact hjoined.trans (keepsDraw_admissionRequest _ _)
        · exact hjoined
  · split
    · exact .refl s
    · split
      · exact flagged _ _ _
      next i hfree =>
        obtain ⟨hnone, hi⟩ := lowestFree_some hfree
        exact (keepsDraw_setRecord_free hi hnone rfl).trans (keepsDraw_admissionRequest _ _)

theorem keepsDraw_settleOutcome (s : State) (i : Nat) : KeepsDraw s (settleOutcome s i) := by
  unfold settleOutcome
  cases h : recordAt s i with
  | none => exact .refl s
  | some r =>
    dsimp only
    split
    · exact keepsDraw_freeRecord s i
    split
    · exact keepsDraw_setRecord h
    · exact (keepsDraw_setRecord (r := { r with restrike := false, phase := none }) h).trans
        (keepsDraw_admissionRequest _ i)

theorem keepsDraw_settleAtOnce (s : State) (i : Nat) : KeepsDraw s (settleAtOnce s i) := by
  unfold settleAtOnce
  split
  · exact .refl s
  · split
    · exact keepsDraw_settleOutcome s i
    · exact .refl s

theorem keepsDraw_lastRelease {s : State} {i : Nat} {x r : Record} (h : recordAt s i = some x) (hrank : r.rank = x.rank := by rfl)
    (hcharge : r.charge = x.charge := by rfl) : KeepsDraw s (lastRelease s i r) := by
  have settles : KeepsDraw s (settleAtOnce (enterSettling s i r) i) :=
    KeepsDraw.trans (t := enterSettling s i r) (keepsDraw_storeRecord h hrank) (keepsDraw_settleAtOnce _ i)
  unfold lastRelease
  split
  · exact (keepsDraw_setRail (s := s) (j := railOf s r)
      (r := { railAt s (railOf s r) with deferred := (railAt s (railOf s r)).deferred.filter fun j => j != i })
      rfl).trans (keepsDraw_freeRecord _ i)
  · exact keepsDraw_freeRecord s i
  · exact settles
  · exact settles
  · exact settles
  · exact settles
  · exact keepsDraw_setRecord h hrank hcharge
  · exact keepsDraw_setRecord h hrank hcharge

theorem keepsDraw_releaseRequest (s : State) (pat : Pattern) : KeepsDraw s (releaseRequest s pat) := by
  have visited (s : State) (i : Nat) : KeepsDraw s (releaseVisit pat s i) := by
    unfold releaseVisit
    cases h : recordAt s i with
    | none => exact .refl s
    | some r =>
      dsimp only
      split
      · exact .refl s
      split
      · exact keepsDraw_lastRelease h
      · exact keepsDraw_setRecord h
  refine (KeepsDraw.foldl visited (occupied s) s).trans (.foldl (fun u k => ?_) four _)
  split
  · exact keepsDraw_allocatorWork u k
  · exact .refl u

/-- Whatever claims and releases bring about keeps the draws. -/
theorem keepsDraw_of_sounds {s t : State} (h : Sounds s t) : KeepsDraw s t :=
  h.keeps (P := DrawSound)
    (fun q => keepsDraw_of_same q.ranks q.table fun k _ => by rw [railAt, q.rails, railAt])
    (fun u c rank pipe => keepsDraw_claimRequest u c rank pipe) fun u pat => keepsDraw_releaseRequest u pat

/-! ### Expiries of a record's timers -/

theorem keepsDraw_cycleOutcome (s : State) (i : Nat) : KeepsDraw s (cycleOutcome s i) := by
  unfold cycleOutcome
  cases h : recordAt s i with
  | none => exact .refl s
  | some r =>
    dsimp only
    split
    · exact keepsDraw_setRecord h
    · exact (keepsDraw_setRecord (r := { r with cycle := none, cycleHeld := false }) h).trans
        (keepsDraw_admissionRequest _ i)

theorem keepsDraw_waitExpiry (s : State) (i : Nat) : KeepsDraw s (waitExpiry s i) := by
  unfold waitExpiry
  cases h : recordAt s i with
  | none => exact .refl s
  | some r =>
    dsimp only
    split
    · exact (keepsDraw_setRecord (r := { r with overdue := true, phase := none }) h).trans
        ((keepsDraw_bump _ _).trans (keepsDraw_raise _ _ _))
    · exact .refl s

theorem keepsDraw_pullExpiry (s : State) (i : Nat) : KeepsDraw s (pullExpiry s i) := by
  unfold pullExpiry
  cases h : recordAt s i with
  | none => exact .refl s
  | some r =>
    dsimp only
    split
    · exact KeepsDraw.trans (keepsDraw_storeRecord h) (keepsDraw_workIfFell s _ _)
    · exact .refl s

theorem keepsDraw_settleExpiry (s : State) (i : Nat) : KeepsDraw s (settleExpiry s i) := by
  unfold settleExpiry
  split
  · exact .refl s
  · split
    · exact keepsDraw_settleOutcome s i
    · exact .refl s

theorem keepsDraw_strikeExpiry (s : State) (i : Nat) : KeepsDraw s (strikeExpiry s i) := by
  unfold strikeExpiry
  cases h : recordAt s i with
  | none => exact .refl s
  | some r =>
    have settles (x : Record) (hx : x.rank = r.rank) :
        KeepsDraw s (settleAtOnce (workIfFell s (enterSettling s i x) (railOf s r)) i) :=
      KeepsDraw.trans (t := enterSettling s i x) (keepsDraw_storeRecord h hx)
        ((keepsDraw_workIfFell s _ _).trans (keepsDraw_settleAtOnce _ i))
    have rests : KeepsDraw s (workIfFell s
        (storeRecord s i { r with state := .resting, charge := 0, phase := none, cycleHeld := false }) (railOf s r)) :=
      KeepsDraw.trans (keepsDraw_storeRecord h) (keepsDraw_workIfFell s _ _)
    dsimp only
    split
    · split
      · split
        · exact rests.trans (keepsDraw_cycleOutcome _ i)
        · exact rests
      · split
        · exact settles _ rfl
        · exact settles _ rfl
    · exact .refl s

theorem keepsDraw_cycleExpiry (s : State) (i : Nat) : KeepsDraw s (cycleExpiry s i) := by
  unfold cycleExpiry
  cases h : recordAt s i with
  | none => exact .refl s
  | some r =>
    dsimp only
    split
    · split
      · exact keepsDraw_cycleOutcome s i
      · exact keepsDraw_setRecord h
      · exact .refl s
    · exact .refl s

theorem keepsDraw_protectionExpiry (s : State) (i : Nat) : KeepsDraw s (protectionExpiry s i) := by
  unfold protectionExpiry
  cases h : recordAt s i with
  | none => exact .refl s
  | some r =>
    dsimp only
    split
    · refine KeepsDraw.trans (t := storeRecord s i { r with
          state := .locked, charge := 0, phase := none, protection := none }) (keepsDraw_storeRecord h) ?_
      exact ((keepsDraw_bump _ _).trans (keepsDraw_raise _ _ _)).trans (keepsDraw_workIfFell s _ _)
    · exact .refl s

end Sys2Proof.Proofs.Draw
end

section
/-! PROOFS. The deferred lists, the pauses, the capacities and the charges (R55, R68, R70, R71): what one index must
satisfy for `SupplySound` to hold, and that every operation of the allocator and of the sounding table keeps it. -/

namespace Sys2Proof.Proofs.SupplyLists

open Sys2Proof.Machine Sys2Proof.Proofs.Playing Sys2Proof.Proofs.Claims Sys2Proof.Proofs.Draw

/-! ### One index at a time -/

/-- What `SupplySound` asks of a record by itself: paused only as a RESTING roll, of its rank's kind, and PULLING only at
a charge that its hold charge does not pass. -/
structure RecordFits (s : State) (r : Record) : Prop where
  paused : r.paused = true → r.kind = .reiterate ∧ r.state = .resting
  kind : recordKind? (rankAt s r.rank).kind = some r.kind
  pulling : r.state = .pulling → holdCharge (rankAt s r.rank) ≤ r.charge

theorem recordFits_of_sound {s : State} (hs : SupplySound s) {i : Nat} {r : Record} (h : recordAt s i = some r) :
    RecordFits s r := by
  obtain ⟨-, hpaused, -, -, hcharges⟩ := hs
  exact ⟨hpaused i r h, (hcharges i r h).1, (hcharges i r h).2⟩

/-- Index `i` is in rail `k`'s list exactly when it should be: its record is WAITING, of the rail. -/
def WaitsOn (s : State) (k i : Nat) : Prop :=
  ∃ r, recordAt s i = some r ∧ r.state = .waiting ∧ railOf s r = k

/-- The lists of t are those of s but for index `i`, which stands in them as its record asks. -/
def ListsAt (i : Nat) (s t : State) : Prop :=
  ∀ k, k < 4 → ((railAt s k).deferred.Nodup → (railAt t k).deferred.Nodup)
    ∧ (∀ j, j ≠ i → (j ∈ (railAt t k).deferred ↔ j ∈ (railAt s k).deferred))
    ∧ (i ∈ (railAt t k).deferred ↔ WaitsOn t k i)

/-- A change at one index keeps what the table and the rails keep in step, if the record there fits, the lists hold the
index as it asks, and no draw passes its capacity. -/
theorem supplySound_at {s t : State} {i : Nat} (hs : SupplySound s) (hranks : t.ranks = s.ranks)
    (hrec : ∀ j, j ≠ i → recordAt t j = recordAt s j) (hfits : ∀ r, recordAt t i = some r → RecordFits t r)
    (hlists : DeferredSound s → ListsAt i s t)
    (hdraw : ∀ k, k < 4 → (railAt s k).draw ≤ (railAt s k).entry.capacity →
      (railAt t k).draw ≤ (railAt t k).entry.capacity) : SupplySound t := by
  obtain ⟨hdeferred, hpaused, hwithin, hholds, hcharges⟩ := hs
  have hrankAt (q : Nat) : rankAt t q = rankAt s q := by rw [rankAt, hranks, rankAt]
  refine ⟨fun k hk => ?_, fun j r hr => ?_, fun k hk => hdraw k hk (hwithin k hk), fun q => ?_, fun j r hr => ?_⟩
  · obtain ⟨hnodup, hothers, hown⟩ := hlists hdeferred k hk
    refine ⟨hnodup (hdeferred k hk).1, fun j => ?_⟩
    by_cases hj : j = i
    · rw [hj]
      exact hown
    · rw [hothers j hj, (hdeferred k hk).2 j, hrec j hj]
      simp only [railOf, hrankAt]
  · by_cases hj : j = i
    · exact (hfits r (hj ▸ hr)).paused
    · exact hpaused j r (hrec j hj ▸ hr)
  · rw [hrankAt]
    exact hholds q
  · by_cases hj : j = i
    · have := hfits r (hj ▸ hr)
      exact ⟨this.kind, this.pulling⟩
    · rw [hrankAt]
      exact hcharges j r (hrec j hj ▸ hr)

/-- What the table and the rails keep in step is kept where s keeps it. -/
def KeepsSupply (s t : State) : Prop :=
  SupplySound s → SupplySound t

namespace KeepsSupply

theorem refl (s : State) : KeepsSupply s s := id

theorem trans {s t u : State} (h : KeepsSupply s t) (k : KeepsSupply t u) : KeepsSupply s u := fun hs => k (h hs)

theorem foldl {α : Type} {f : State → α → State} (h : ∀ s a, KeepsSupply s (f s a)) (xs : List α) (s : State) :
    KeepsSupply s (xs.foldl f s) := by
  induction xs generalizing s with
  | nil => exact refl s
  | cons a t ih => exact (h s a).trans (ih _)

end KeepsSupply

/-- An index whose record does not wait is in no list. -/
theorem not_mem_deferred {s : State} (hs : DeferredSound s) {i k : Nat} (hk : k < 4)
    (hi : ∀ r, recordAt s i = some r → r.state ≠ .waiting) : i ∉ (railAt s k).deferred := by
  rw [(hs k hk).2 i]
  rintro ⟨r, hr, hw, -⟩
  exact hi r hr hw

/-- The lists stand, and the index waits as it did. -/
theorem listsAt_of_same {i : Nat} {s t : State} (hs : DeferredSound s)
    (hlists : ∀ k, k < 4 → (railAt t k).deferred = (railAt s k).deferred)
    (hwaits : ∀ k, k < 4 → (WaitsOn t k i ↔ WaitsOn s k i)) : ListsAt i s t := by
  intro k hk
  rw [hlists k hk, hwaits k hk]
  exact ⟨id, fun _ _ => Iff.rfl, (hs k hk).2 i⟩

/-- The records, the ranks, the lists and the draws stand. -/
theorem keepsSupply_of_same {s t : State} (hranks : t.ranks = s.ranks) (htable : t.table = s.table)
    (hrails : ∀ k, k < 4 → (railAt t k).deferred = (railAt s k).deferred ∧ (railAt t k).draw = (railAt s k).draw
      ∧ (railAt t k).entry = (railAt s k).entry) : KeepsSupply s t := by
  intro hs
  have hrec (j : Nat) : recordAt t j = recordAt s j := by rw [recordAt, htable, recordAt]
  have hrank (q : Nat) : rankAt t q = rankAt s q := by rw [rankAt, hranks, rankAt]
  refine supplySound_at (i := 448) hs hranks (fun j _ => hrec j) (fun r hr => ?_) (fun hd => ?_) fun k hk h => ?_
  · exact absurd (recordAt_lt hr) (by decide)
  · refine listsAt_of_same hd (fun k hk => (hrails k hk).1) fun k _ => ?_
    simp only [WaitsOn, hrec, railOf, hrank]
  · rw [(hrails k hk).2.1, (hrails k hk).2.2]
    exact h

theorem keepsSupply_bump (s : State) (c : Counter) : KeepsSupply s (bump s c) :=
  keepsSupply_of_same rfl rfl fun _ _ => ⟨rfl, rfl, rfl⟩

theorem keepsSupply_raise (s : State) (c : Cause) (d : Detail) : KeepsSupply s (raise s c d) :=
  keepsSupply_of_same rfl rfl fun _ _ => ⟨rfl, rfl, rfl⟩

theorem keepsSupply_judgeStrain (s : State) (k : Nat) : KeepsSupply s (judgeStrain s k) := by
  refine keepsSupply_of_same rfl rfl fun j _ => ?_
  rw [judgeStrain, railAt_setRail]
  split
  · next h => rw [← h.1]; exact ⟨rfl, rfl, rfl⟩
  · exact ⟨rfl, rfl, rfl⟩

/-! ### A record that moves on (R20, R68) -/

/-- The record x may take the place of r: same rank and kind, waiting as r waits, fit, and of no greater charge. -/
structure Replaces (s : State) (r x : Record) : Prop where
  rank : x.rank = r.rank
  kind : x.kind = r.kind
  waits : x.state = .waiting ↔ r.state = .waiting
  paused : x.paused = true → x.kind = .reiterate ∧ x.state = .resting
  pulling : x.state = .pulling → holdCharge (rankAt s x.rank) ≤ x.charge

section Replaces

variable {s : State} {i : Nat} {r x : Record} (h : recordAt s i = some r) (hx : Replaces s r x)
include h hx

theorem Replaces.fits (hs : SupplySound s) : RecordFits s x :=
  ⟨hx.paused, by rw [hx.rank, hx.kind]; exact (recordFits_of_sound hs h).kind, hx.pulling⟩

theorem keepsSupply_setRecord : KeepsSupply s (setRecord s i (some x)) := by
  intro hs
  have hi := recordAt_lt h
  have hset : recordAt (setRecord s i (some x)) i = some x := by rw [recordAt_setRecord, if_pos ⟨rfl, hi⟩]
  refine supplySound_at (i := i) hs rfl (fun j hj => ?_) (fun y hy => ?_) (fun hd => ?_) fun k _ hle => hle
  · rw [recordAt_setRecord, if_neg (fun hc => hj hc.1.symm)]
  · obtain rfl := Option.some.inj (hset.symm.trans hy)
    have hfits := hx.fits h hs
    exact ⟨hfits.paused, hfits.kind, hfits.pulling⟩
  · refine listsAt_of_same hd (fun _ _ => rfl) fun k _ => ?_
    simp only [WaitsOn, hset, h, Option.some.injEq, exists_eq_left', hx.waits, railOf, hx.rank, rankAt_setRecord]

theorem keepsSupply_storeRecord (hcharge : x.charge ≤ r.charge) : KeepsSupply s (storeRecord s i x) := by
  intro hs
  have hi := recordAt_lt h
  have hset : recordAt (storeRecord s i x) i = some x := by rw [recordAt_storeRecord, if_pos ⟨rfl, hi⟩]
  have hat : chargeAt s i = r.charge := by simp only [chargeAt, h]
  refine supplySound_at (i := i) hs rfl (fun j hj => ?_) (fun y hy => ?_) (fun hd => ?_) fun k hk hle => ?_
  · rw [recordAt_storeRecord, if_neg (fun hc => hj hc.1.symm)]
  · obtain rfl := Option.some.inj (hset.symm.trans hy)
    have hfits := hx.fits h hs
    exact ⟨hfits.paused, hfits.kind, hfits.pulling⟩
  · refine listsAt_of_same hd (fun k hk => deferred_storeRecord s i k x hk) fun k _ => ?_
    have hrail (y : Record) : railOf (storeRecord s i x) y = railOf s y := rfl
    simp only [WaitsOn, hset, h, Option.some.injEq, exists_eq_left', hx.waits, hrail]
    simp only [railOf, hx.rank]
  · rw [railAt_storeRecord s i k x hk, hat]
    split
    · dsimp only
      omega
    · exact hle

end Replaces

/-- A record that does not wait is freed. -/
theorem keepsSupply_freeRecord {s : State} {i : Nat} (hw : ∀ r, recordAt s i = some r → r.state ≠ .waiting) :
    KeepsSupply s (freeRecord s i) := by
  cases h : recordAt s i with
  | none =>
    unfold freeRecord
    rw [h]
    exact .refl s
  | some r =>
    intro hs
    have hfree : recordAt (freeRecord s i) i = none := by rw [recordAt_freeRecord, if_pos rfl]
    have hrail (k : Nat) (hk : k < 4) := railAt_freeRecord s h k hk
    refine supplySound_at (i := i) hs (evolves_freeRecord s i).rank (fun j hj => ?_) (fun y hy => ?_) (fun hd => ?_)
      fun k hk hle => ?_
    · rw [recordAt_freeRecord, if_neg (Ne.symm hj)]
    · rw [hfree] at hy
      exact absurd hy (by simp)
    · refine listsAt_of_same hd (fun k hk => ?_) fun k _ => ?_
      · rw [hrail k hk]
        split <;> rfl
      · refine iff_of_false ?_ fun ⟨y, hy, hwait, _⟩ => hw y hy hwait
        rintro ⟨y, hy, -⟩
        rw [hfree] at hy
        exact absurd hy (by simp)
    · rw [hrail k hk]
      split
      · exact (Nat.sub_le _ _).trans hle
      · exact hle

/-- A WAITING record leaves its list and is freed (R33). -/
theorem keepsSupply_freeWaiting {s : State} {i : Nat} {r : Record} (h : recordAt s i = some r) :
    KeepsSupply s (freeRecord (leaveDeferred s (railOf s r) i) i) := by
  intro hs
  let u := leaveDeferred s (railOf s r) i
  have hu : recordAt u i = some r := h
  have hfree : recordAt (freeRecord u i) i = none := by rw [recordAt_freeRecord, if_pos rfl]
  have hrail (k : Nat) (hk : k < 4) := railAt_freeRecord u hu k hk
  have hleave (k : Nat) (hk : k < 4) : railAt u k = _ := railAt_leaveDeferred s (railOf s r) i k hk
  have hlist (k : Nat) (hk : k < 4) : (railAt (freeRecord u i) k).deferred =
      if railOf s r = k then (railAt s k).deferred.filter fun x => x != i else (railAt s k).deferred := by
    rw [hrail k hk, hleave k hk]
    by_cases hc : railOf s r = k
    · simp only [hc, if_true]; split <;> rfl
    · simp only [hc, if_false]; split <;> rfl
  refine supplySound_at (i := i) hs (evolves_freeRecord u i).rank (fun j hj => ?_) (fun y hy => ?_) (fun hd k hk => ?_)
    fun k hk hle => ?_
  · rw [recordAt_freeRecord, if_neg (Ne.symm hj)]
    rfl
  · rw [hfree] at hy
    exact absurd hy (by simp)
  · have hgone : ¬ WaitsOn (freeRecord u i) k i := by
      rintro ⟨y, hy, -⟩
      rw [hfree] at hy
      exact absurd hy (by simp)
    rw [hlist k hk]
    split
    next hc =>
      refine ⟨fun hn => hn.filter _, fun j hj => ?_, ?_⟩
      · simp [hj]
      · exact iff_of_false (by simp) hgone
    next hc =>
      refine ⟨id, fun _ _ => Iff.rfl, ?_⟩
      rw [iff_false_right hgone, (hd k hk).2 i]
      rintro ⟨y, hy, -, hk'⟩
      obtain rfl := Option.some.inj (h.symm.trans hy)
      exact hc hk'
  · have hcap : (railAt u k).draw ≤ (railAt u k).entry.capacity := by
      rw [hleave k hk]
      split <;> exact hle
    rw [hrail k hk]
    split
    · exact (Nat.sub_le _ _).trans hcap
    · exact hcap

/-! ### Admission (R30, R32, R48, R70) -/

theorem usesHold_of_recordKind {k : RankKind} {q : RecordKind} (h : recordKind? k = some q)
    (hq : q = .pipe ∨ q = .held) : usesHold k = true := by
  cases k <;> simp_all [recordKind?, usesHold]
  all_goals rcases hq with rfl | rfl <;> simp_all

/-- An admitted record fits: PULLING it holds the pull units of a rank with hold units, and a roll is no longer paused. -/
theorem asAdmitted_fits {s : State} (hs : SupplySound s) {r : Record} (hr : RecordFits s r) :
    RecordFits s (asAdmitted (rankAt s r.rank) r) := by
  obtain ⟨-, -, -, hholds, -⟩ := hs
  refine ⟨fun hp => ?_, hr.kind, fun hpull => ?_⟩
  · exfalso
    cases hk : r.kind <;> simp only [asAdmitted, hk, reduceCtorEq, decide_false, decide_true, if_true, if_false,
      Bool.false_eq_true] at hp
    all_goals exact absurd ((hr.paused hp).1.symm.trans hk) (by decide)
  · have hkind : r.kind = .pipe ∨ r.kind = .held := by
      cases hk : r.kind <;> simp [asAdmitted, hk] at hpull <;> simp
    exact hholds _ (usesHold_of_recordKind hr.kind hkind)

theorem asAdmitted_not_waiting (e : RankEntry) (r : Record) : (asAdmitted e r).state ≠ .waiting := by
  cases hk : r.kind <;> simp [asAdmitted, hk]

theorem railAt_admitRecord (s : State) (i : Nat) (r : Record) {k : Nat} (hk : k < 4) :
    (railAt (admitRecord s i r) k).deferred = (railAt s k).deferred
      ∧ (railAt (admitRecord s i r) k).entry = (railAt s k).entry
      ∧ (railAt (admitRecord s i r) k).draw = if railOf s r = k then
          (railAt s k).draw + (rankAt s r.rank).pull - chargeAt s i else (railAt s k).draw := by
  have hrail : railOf s (energize (rankAt s r.rank) r) = railOf s r := Supply.railOf_energize s _ r
  have hcharge := Supply.energize_charge (rankAt s r.rank) r
  have hstored := railAt_storeRecord s i k (energize (rankAt s r.rank) r) hk
  rw [hrail, hcharge] at hstored
  rw [admitRecord, judgeStrain, railAt_setRail]
  split
  · next hc =>
    obtain ⟨rfl, -⟩ := hc
    rw [hstored]
    simp
  · rw [hstored]
    split <;> simp

/-- A record that is in no list when it asks is admitted: the draw stays within the capacity. -/
theorem supplySound_admits {s u : State} {i : Nat} {r : Record} (hs : SupplySound s) (hi : i < 448)
    (hranks : u.ranks = s.ranks) (hrec : ∀ j, j ≠ i → recordAt u j = recordAt s j) (hr : RecordFits s r)
    (hentry : ∀ k, k < 4 → (railAt u k).entry = (railAt s k).entry ∧ (railAt u k).draw = (railAt s k).draw)
    (hlists : ∀ k, k < 4 → ((railAt s k).deferred.Nodup → (railAt u k).deferred.Nodup)
      ∧ (∀ j, j ≠ i → (j ∈ (railAt u k).deferred ↔ j ∈ (railAt s k).deferred)) ∧ i ∉ (railAt u k).deferred)
    (hfits : (railAt u (railOf u r)).draw + (rankAt u r.rank).pull ≤ (railAt u (railOf u r)).entry.capacity) :
    SupplySound (admitRecord u i r) := by
  have hrank (q : Nat) : rankAt u q = rankAt s q := by rw [rankAt, hranks, rankAt]
  have hset : recordAt (admitRecord u i r) i = some (asAdmitted (rankAt s r.rank) r) := by
    rw [recordAt_admitRecord, if_pos ⟨rfl, hi⟩, hrank]
  refine supplySound_at (i := i) hs hranks (fun j hj => ?_) (fun y hy => ?_) (fun _ k hk => ?_) fun k hk hle => ?_
  · rw [recordAt_admitRecord, if_neg (fun hc => hj hc.1.symm), hrec j hj]
  · obtain rfl := Option.some.inj (hset.symm.trans hy)
    have hfit := asAdmitted_fits hs hr
    have hrank' (q : Nat) : rankAt (admitRecord u i r) q = rankAt s q := hrank q
    exact ⟨hfit.paused, by rw [hrank']; exact hfit.kind, by rw [hrank']; exact hfit.pulling⟩
  · obtain ⟨hnodup, hothers, hout⟩ := hlists k hk
    rw [(railAt_admitRecord u i r hk).1]
    refine ⟨hnodup, hothers, iff_of_false hout ?_⟩
    rintro ⟨y, hy, hw, -⟩
    obtain rfl := Option.some.inj (hset.symm.trans hy)
    exact asAdmitted_not_waiting _ _ hw
  · obtain ⟨-, hcap, hdraw⟩ := railAt_admitRecord u i r hk
    rw [hcap, hdraw]
    split
    next hc =>
      rw [hc] at hfits
      exact (Nat.sub_le _ _).trans hfits
    · rw [(hentry k hk).1, (hentry k hk).2]
      exact hle

theorem railAt_deferRecord (s : State) (i : Nat) (r : Record) {k : Nat} (hk : k < 4) :
    (railAt (deferRecord s i r) k).entry = (railAt s k).entry
      ∧ (railAt (deferRecord s i r) k).draw ≤ (railAt s k).draw := by
  have hstored := railAt_storeRecord s i k (waitFor (railAt s (railOf s r)) r) hk
  have hrail : railOf s (waitFor (railAt s (railOf s r)) r) = railOf s r := rfl
  have hcharge : (waitFor (railAt s (railOf s r)) r).charge = 0 := rfl
  rw [hrail, hcharge] at hstored
  have hset (u : State) (x : Rail) (c : Counter) : railAt (bump (setRail u (railOf s r) x) c) k =
      if railOf s r = k ∧ railOf s r < 4 then x else railAt u k := railAt_setRail u _ k x
  simp only [deferRecord, hset]
  split
  · next hc =>
    obtain ⟨rfl, -⟩ := hc
    simp only [hstored, if_true, true_and]
    omega
  · rw [hstored]
    split
    · exact ⟨rfl, by dsimp only; omega⟩
    · exact ⟨rfl, Nat.le_refl _⟩

/-- A record that is in no list asks for admission, and is admitted or put to the tail of its rail's list. -/
theorem keepsSupply_admissionRequest {s : State} {i : Nat} (hw : ∀ r, recordAt s i = some r → r.state ≠ .waiting) :
    KeepsSupply s (admissionRequest s i) := by
  unfold admissionRequest
  cases h : recordAt s i with
  | none => exact .refl s
  | some r =>
    intro hs
    have hi := recordAt_lt h
    have hout (k : Nat) (hk : k < 4) : i ∉ (railAt s k).deferred := not_mem_deferred hs.1 hk hw
    dsimp only
    split
    next hadmits =>
      simp only [admitsNow, Bool.and_eq_true, decide_eq_true_eq] at hadmits
      exact supplySound_admits hs hi rfl (fun _ _ => rfl) (recordFits_of_sound hs h) (fun _ _ => ⟨rfl, rfl⟩)
        (fun k hk => ⟨id, fun _ _ => Iff.rfl, hout k hk⟩) hadmits.2
    · have hset : recordAt (deferRecord s i r) i = some (waitFor (railAt s (railOf s r)) r) := by
        rw [recordAt_deferRecord, if_pos ⟨rfl, hi⟩]
      refine supplySound_at (i := i) hs rfl (fun j hj => ?_) (fun y hy => ?_) (fun _ k hk => ?_) fun k hk hle => ?_
      · rw [recordAt_deferRecord, if_neg (fun hc => hj hc.1.symm)]
      · obtain rfl := Option.some.inj (hset.symm.trans hy)
        exact ⟨fun hp => absurd hp (by simp [waitFor]), (recordFits_of_sound hs h).kind, fun hp => absurd hp (by simp [waitFor])⟩
      · have hrail : railOf (deferRecord s i r) (waitFor (railAt s (railOf s r)) r) = railOf s r := by rfl
        have hwaits : WaitsOn (deferRecord s i r) k i ↔ railOf s r = k := by
          constructor
          · rintro ⟨y, hy, -, hk'⟩
            obtain rfl := Option.some.inj (hset.symm.trans hy)
            exact hrail.symm.trans hk'
          · intro hk'
            exact ⟨_, hset, by rfl, hrail.trans hk'⟩
        rw [deferred_deferRecord s i k r hk, hwaits]
        split
        next hc =>
          refine ⟨fun hn => ?_, fun j hj => ?_, ?_⟩
          · rw [List.nodup_append]
            refine ⟨hn, List.nodup_singleton _, fun a ha b hb => ?_⟩
            obtain rfl := List.mem_singleton.mp hb
            rintro rfl
            exact hout k hk ha
          · simp [hj]
          · simp [hc]
        next hc => exact ⟨id, fun _ _ => Iff.rfl, iff_of_false (hout k hk) hc⟩
      · obtain ⟨hcap, hdraw⟩ := railAt_deferRecord s i r hk
        rw [hcap]
        exact hdraw.trans hle

/-- A record changed in place, which does not wait, asks for admission. -/
theorem keepsSupply_asks {s : State} {i : Nat} {r x : Record} (h : recordAt s i = some r) (hw : r.state ≠ .waiting)
    (hx : Replaces s r x) : KeepsSupply s (admissionRequest (setRecord s i (some x)) i) := by
  refine (keepsSupply_setRecord h hx).trans (keepsSupply_admissionRequest fun y hy => ?_)
  rw [recordAt_setRecord, if_pos ⟨rfl, recordAt_lt h⟩] at hy
  obtain rfl := Option.some.inj hy
  exact fun hc => hw (hx.waits.mp hc)

/-! ### The allocator's work (R56, R74, R75) -/

theorem keepsSupply_headPass {k : Nat} (hk : k < 4) (fuel : Nat) (s : State) : KeepsSupply s (headPass k fuel s) := by
  induction fuel generalizing s with
  | zero => exact .refl s
  | succ fuel ih =>
    unfold headPass
    split
    · exact .refl s
    next i rest hlist =>
      split
      · exact .refl s
      next r hr =>
        split
        next hfits =>
          refine KeepsSupply.trans (fun hs => ?_) (ih _)
          have hi := recordAt_lt hr
          have hmem := (hs.1 k hk).2 i
          rw [hlist] at hmem
          obtain ⟨y, hy, -, hrail⟩ := hmem.mp List.mem_cons_self
          obtain rfl := Option.some.inj (hr.symm.trans hy)
          have hat (m : Nat) : railAt (setRail s k { railAt s k with deferred := rest }) m =
              if k = m then { railAt s k with deferred := rest } else railAt s m := by
            rw [railAt_setRail]
            simp only [hk, and_true]
          refine supplySound_admits hs hi rfl (fun _ _ => rfl) (recordFits_of_sound hs hr) (fun m hm => ?_) (fun m hm => ?_) ?_
          · rw [hat]
            split
            next hc => rw [← hc]; exact ⟨rfl, rfl⟩
            · exact ⟨rfl, rfl⟩
          · rw [hat]
            split
            next hc =>
              rw [← hc, hlist]
              refine ⟨fun hn => (List.nodup_cons.mp hn).2, fun j hj => by simp [hj], ?_⟩
              have hn := (hs.1 k hk).1
              rw [hlist] at hn
              exact (List.nodup_cons.mp hn).1
            next hc =>
              refine ⟨id, fun _ _ => Iff.rfl, ?_⟩
              rw [(hs.1 m hm).2 i]
              rintro ⟨y, hy, -, hm'⟩
              obtain rfl := Option.some.inj (hr.symm.trans hy)
              exact hc (hrail.symm.trans hm')
          · have hrail' : railOf (setRail s k { railAt s k with deferred := rest }) r = k := hrail
            rw [hrail', hat, if_pos rfl]
            exact hfits
        · exact .refl s

theorem keepsSupply_resumeAt (k : Nat) (s : State) (i : Nat) : KeepsSupply s (resumeAt k s i) := by
  unfold resumeAt
  cases h : recordAt s i with
  | none => exact .refl s
  | some r =>
    dsimp only
    split
    next hc =>
      intro hs
      have hrest : r.state = .resting := ((recordFits_of_sound hs h).paused hc.2.1).2
      have hx : Replaces s r { r with paused := false } :=
        ⟨rfl, rfl, Iff.rfl, fun hp => absurd hp (by simp), fun hp => absurd (hrest.symm.trans hp) (by decide)⟩
      exact keepsSupply_asks h (by rw [hrest]; decide) hx hs
    · exact .refl s

theorem keepsSupply_allocatorWork (s : State) {k : Nat} (hk : k < 4) : KeepsSupply s (allocatorWork s k) := by
  have passed := (keepsSupply_judgeStrain s k).trans
    (keepsSupply_headPass hk (railAt (judgeStrain s k) k).deferred.length _)
  unfold allocatorWork
  dsimp only
  split
  · exact passed.trans (.foldl (keepsSupply_resumeAt k) _ _)
  · exact passed

theorem keepsSupply_workIfFell (s t : State) {k : Nat} (hk : k < 4) : KeepsSupply t (workIfFell s t k) := by
  unfold workIfFell
  split
  · exact keepsSupply_allocatorWork t hk
  · exact .refl t

/-! ### The sounding table (R23 to R28, R36 to R39) -/

theorem keepsSupply_claimRequest (s : State) (c : Claim) (rank pipe : Nat) :
    KeepsSupply s (claimRequest s c rank pipe) := by
  unfold claimRequest
  split
  · split
    · exact .refl s
    next i _ r hr =>
      split
      · exact keepsSupply_bump s _
      split
      · exact (keepsSupply_bump s _).trans (keepsSupply_raise _ _ _)
      · have hx (hs : SupplySound s) : Replaces s r (joined r c) :=
          ⟨rfl, rfl, Iff.rfl, (recordFits_of_sound hs hr).paused, (recordFits_of_sound hs hr).pulling⟩
        unfold joinClaim
        dsimp only
        split
        next hstruck => exact fun hs => keepsSupply_asks hr (by rw [hstruck.2]; decide) (hx hs) hs
        · exact fun hs => keepsSupply_setRecord hr (hx hs) hs
  · split
    · exact .refl s
    next kind hkind =>
      split
      · exact (keepsSupply_bump s _).trans (keepsSupply_raise _ _ _)
      next i hfree =>
        obtain ⟨hnone, hi⟩ := lowestFree_some hfree
        rw [← admissionRequest_setRecord_state hi _ .settling]
        have hset (j : Nat) (hj : j ≠ i) (x : Option Record) : recordAt (setRecord s i x) j = recordAt s j := by
          rw [recordAt_setRecord, if_neg (fun hc => hj hc.1.symm)]
        have hnew (x : Option Record) : recordAt (setRecord s i x) i = x := by
          rw [recordAt_setRecord, if_pos ⟨rfl, hi⟩]
        refine KeepsSupply.trans (fun hs => ?_) (keepsSupply_admissionRequest fun y hy => ?_)
        · refine supplySound_at (i := i) hs rfl (fun j hj => hset j hj _) (fun y hy => ?_) (fun hd => ?_)
            fun _ _ hle => hle
          · rw [hnew] at hy
            obtain rfl := Option.some.inj hy
            exact ⟨fun hp => absurd hp (by simp [newRecord]), hkind, fun hp => absurd hp (by simp)⟩
          · refine listsAt_of_same hd (fun _ _ => rfl) fun k _ => ?_
            simp [WaitsOn, hnew, hnone]
        · rw [hnew] at hy
          obtain rfl := Option.some.inj hy
          simp

theorem keepsSupply_settleOutcome {s : State} {i : Nat} (hw : ∀ r, recordAt s i = some r → r.state = .settling) :
    KeepsSupply s (settleOutcome s i) := by
  unfold settleOutcome
  cases h : recordAt s i with
  | none => exact .refl s
  | some r =>
    have hstate := hw r h
    have hnot : r.state ≠ .waiting := by rw [hstate]; decide
    dsimp only
    split
    · exact keepsSupply_freeRecord fun y hy => by rw [hw y hy]; decide
    split
    · intro hs
      refine keepsSupply_setRecord h ⟨rfl, rfl, by simp [hstate], fun hp => ?_, fun hp => absurd hp (by simp)⟩ hs
      exact absurd (((recordFits_of_sound hs h).paused hp).2.symm.trans hstate) (by decide)
    · intro hs
      exact keepsSupply_asks h hnot
        ⟨rfl, rfl, Iff.rfl, (recordFits_of_sound hs h).paused, fun hp => absurd (hstate.symm.trans hp) (by decide)⟩ hs

theorem keepsSupply_settleAtOnce {s : State} {i : Nat} (hw : ∀ r, recordAt s i = some r → r.state = .settling) :
    KeepsSupply s (settleAtOnce s i) := by
  unfold settleAtOnce
  split
  · exact .refl s
  · split
    · exact keepsSupply_settleOutcome hw
    · exact .refl s

theorem replaces_settling {s : State} {r x : Record} (hrank : x.rank = r.rank) (hkind : x.kind = r.kind)
    (hw : r.state ≠ .waiting) (e : RankEntry) : Replaces s r (settling e x) :=
  ⟨hrank, hkind, iff_of_false (by simp [settling]) hw, fun hp => absurd hp (by simp [settling]),
    fun hp => absurd hp (by simp [settling])⟩

theorem keepsSupply_enterSettling {s : State} {i : Nat} {r x : Record} (h : recordAt s i = some r)
    (hrank : x.rank = r.rank) (hkind : x.kind = r.kind) (hw : r.state ≠ .waiting) :
    KeepsSupply s (enterSettling s i x) :=
  keepsSupply_storeRecord h (replaces_settling hrank hkind hw _) (Nat.zero_le _)

theorem recordAt_enterSettling {s : State} {i : Nat} {r : Record} (hi : i < 448) :
    recordAt (enterSettling s i r) i = some (settling (rankAt s r.rank) r) := by
  rw [enterSettling, recordAt_storeRecord, if_pos ⟨rfl, hi⟩]

theorem keepsSupply_lastRelease {s : State} {i : Nat} {r : Record} (h : recordAt s i = some r) :
    KeepsSupply s (lastRelease s i { r with claims := [] }) := by
  have settles (hw : r.state ≠ .waiting) :
      KeepsSupply s (settleAtOnce (enterSettling s i { r with claims := [] }) i) := by
    have entered := keepsSupply_enterSettling (x := { r with claims := [] }) h rfl rfl hw
    refine entered.trans (keepsSupply_settleAtOnce fun y hy => ?_)
    rw [recordAt_enterSettling (recordAt_lt h)] at hy
    obtain rfl := Option.some.inj hy
    rfl
  have hrail : railOf s { r with claims := [] } = railOf s r := by rfl
  unfold lastRelease
  rw [hrail]
  dsimp only
  split
  · exact keepsSupply_freeWaiting h
  next hst =>
    refine keepsSupply_freeRecord fun y hy => ?_
    obtain rfl := Option.some.inj (h.symm.trans hy)
    rw [hst]; decide
  next hst => exact settles (by rw [hst]; decide)
  next hst => exact settles (by rw [hst]; decide)
  next hst => exact settles (by rw [hst]; decide)
  next hst => exact settles (by rw [hst]; decide)
  · exact fun hs => keepsSupply_setRecord h
      ⟨rfl, rfl, Iff.rfl, (recordFits_of_sound hs h).paused, (recordFits_of_sound hs h).pulling⟩ hs
  · exact fun hs => keepsSupply_setRecord h
      ⟨rfl, rfl, Iff.rfl, (recordFits_of_sound hs h).paused, (recordFits_of_sound hs h).pulling⟩ hs

theorem keepsSupply_releaseRequest (s : State) (pat : Pattern) : KeepsSupply s (releaseRequest s pat) := by
  have visited (s : State) (i : Nat) : KeepsSupply s (releaseVisit pat s i) := by
    unfold releaseVisit
    cases h : recordAt s i with
    | none => exact .refl s
    | some r =>
      dsimp only
      split
      · exact .refl s
      split
      · exact keepsSupply_lastRelease h
      · exact fun hs => keepsSupply_setRecord h
          ⟨rfl, rfl, Iff.rfl, (recordFits_of_sound hs h).paused, (recordFits_of_sound hs h).pulling⟩ hs
  have worked {ks : List Nat} (hks : ∀ k ∈ ks, k < 4) (u v : State) :
      KeepsSupply v (ks.foldl (fun w k => if railTouched s u k then allocatorWork w k else w) v) := by
    induction ks generalizing v with
    | nil => exact .refl v
    | cons k ks ih =>
      refine KeepsSupply.trans ?_ (ih (fun m hm => hks m (List.mem_cons_of_mem _ hm)) _)
      dsimp only
      split
      · exact keepsSupply_allocatorWork v (hks k List.mem_cons_self)
      · exact .refl v
  exact (KeepsSupply.foldl visited (occupied s) s).trans (worked (by decide) _ _)

/-- Whatever claims and releases bring about keeps the lists, the pauses and the charges in step. -/
theorem keepsSupply_of_sounds {s t : State} (h : Sounds s t) : KeepsSupply s t :=
  h.keeps (P := SupplySound)
    (fun q => keepsSupply_of_same q.ranks q.table fun k _ => by simp only [railAt, q.rails, and_self])
    (fun u c rank pipe => keepsSupply_claimRequest u c rank pipe) fun u pat => keepsSupply_releaseRequest u pat

/-! ### Expiries of a record's timers -/

theorem keepsSupply_waitExpiry (s : State) (i : Nat) : KeepsSupply s (waitExpiry s i) := by
  unfold waitExpiry
  cases h : recordAt s i with
  | none => exact .refl s
  | some r =>
    dsimp only
    split
    · refine KeepsSupply.trans (fun hs => ?_) ((keepsSupply_bump _ _).trans (keepsSupply_raise _ _ _))
      exact keepsSupply_setRecord (x := { r with overdue := true, phase := none }) h
        ⟨rfl, rfl, Iff.rfl, (recordFits_of_sound hs h).paused, (recordFits_of_sound hs h).pulling⟩ hs
    · exact .refl s

theorem keepsSupply_cycleOutcome {s : State} {i : Nat}
    (hw : ∀ r, recordAt s i = some r → r.kind = .reiterate ∧ r.state = .resting) :
    KeepsSupply s (cycleOutcome s i) := by
  unfold cycleOutcome
  cases h : recordAt s i with
  | none => exact .refl s
  | some r =>
    obtain ⟨hkind, hstate⟩ := hw r h
    have hpull {q : Prop} : r.state = .pulling → q := fun hp => absurd (hstate.symm.trans hp) (by decide)
    dsimp only
    split
    · exact keepsSupply_setRecord h ⟨rfl, rfl, Iff.rfl, fun _ => ⟨hkind, hstate⟩, hpull⟩
    · exact keepsSupply_asks h (by rw [hstate]; decide) ⟨rfl, rfl, Iff.rfl, fun _ => ⟨hkind, hstate⟩, hpull⟩

theorem keepsSupply_pullExpiry {s : State} (hrails : ∀ r, (rankAt s r).rail < 4) (i : Nat) :
    KeepsSupply s (pullExpiry s i) := by
  unfold pullExpiry
  cases h : recordAt s i with
  | none => exact .refl s
  | some r =>
    dsimp only
    split
    next hc =>
      refine KeepsSupply.trans (fun hs => ?_) (keepsSupply_workIfFell s _ (hrails r.rank))
      have hnot : ¬ r.paused = true := fun hp => absurd (((recordFits_of_sound hs h).paused hp).2.symm.trans hc.1) (by decide)
      exact keepsSupply_storeRecord h ⟨rfl, rfl, iff_of_false (by simp) (by rw [hc.1]; decide),
        fun hp => absurd hp hnot, fun hp => absurd hp (by simp)⟩ ((recordFits_of_sound hs h).pulling hc.1) hs
    · exact .refl s

theorem keepsSupply_settleExpiry (s : State) (i : Nat) : KeepsSupply s (settleExpiry s i) := by
  unfold settleExpiry
  cases h : recordAt s i with
  | none => exact .refl s
  | some r =>
    dsimp only
    split
    next hc =>
      refine keepsSupply_settleOutcome fun y hy => ?_
      obtain rfl := Option.some.inj (h.symm.trans hy)
      exact hc.1
    · exact .refl s

/-- The record just stored, neither waiting nor paused, stands while the allocator works. -/
theorem recordAt_workIfFell {s t : State} {i k : Nat} {x : Record} (hk : k < 4) (ht : SupplySound t)
    (h : recordAt t i = some x) (hw : x.state ≠ .waiting) (hp : x.paused = false) :
    recordAt (workIfFell s t k) i = some x := by
  have hstill : Still i t := by
    refine ⟨fun m hm => not_mem_deferred ht.1 hm fun y hy => ?_, fun y hy => ?_⟩
    · obtain rfl := Option.some.inj (h.symm.trans hy)
      exact hw
    · obtain rfl := Option.some.inj (h.symm.trans hy)
      exact hp
  unfold workIfFell
  split
  · rw [(keepsStill_allocatorWork i k hk t hstill).1, h]
  · exact h

theorem keepsSupply_strikeExpiry {s : State} (hrails : ∀ r, (rankAt s r).rail < 4) (i : Nat) :
    KeepsSupply s (strikeExpiry s i) := by
  unfold strikeExpiry
  cases h : recordAt s i with
  | none => exact .refl s
  | some r =>
    dsimp only
    split
    next hc =>
      have hi := recordAt_lt h
      have hnot : r.state ≠ .waiting := by rw [hc.1]; decide
      have hrail : railOf s r < 4 := hrails r.rank
      have settles (x : Record) (hrank : x.rank = r.rank) (hkind : x.kind = r.kind) :
          KeepsSupply s (settleAtOnce (workIfFell s (enterSettling s i x) (railOf s r)) i) := by
        intro hs
        have hent := keepsSupply_enterSettling h hrank hkind hnot hs
        have hrec := recordAt_workIfFell (s := s) hrail hent (recordAt_enterSettling hi) (by simp [settling]) rfl
        refine keepsSupply_settleAtOnce (fun y hy => ?_) (keepsSupply_workIfFell s _ hrail hent)
        obtain rfl := Option.some.inj (hrec.symm.trans hy)
        rfl
      split
      next hrests =>
        intro hs
        let x : Record := { r with state := .resting, charge := 0, phase := none, cycleHeld := false }
        have hx : Replaces s r x :=
          ⟨rfl, rfl, iff_of_false (by simp [x]) hnot, fun _ => ⟨hrests.1, rfl⟩, fun hp => absurd hp (by simp [x])⟩
        have hstore := keepsSupply_storeRecord h hx (Nat.zero_le _) hs
        have hpaused : x.paused = false :=
          Bool.of_not_eq_true fun hp => absurd (((recordFits_of_sound hs h).paused hp).2.symm.trans hc.1) (by decide)
        have hset : recordAt (storeRecord s i x) i = some x := by rw [recordAt_storeRecord, if_pos ⟨rfl, hi⟩]
        have hrec := recordAt_workIfFell (s := s) hrail hstore hset (by simp [x]) hpaused
        have hwork := keepsSupply_workIfFell s _ hrail hstore
        split
        · refine keepsSupply_cycleOutcome (fun y hy => ?_) hwork
          obtain rfl := Option.some.inj (hrec.symm.trans hy)
          exact ⟨hrests.1, rfl⟩
        · exact hwork
      · split
        · exact settles _ rfl rfl
        · exact settles _ rfl rfl
    · exact .refl s

theorem keepsSupply_cycleExpiry (s : State) (i : Nat) : KeepsSupply s (cycleExpiry s i) := by
  unfold cycleExpiry
  cases h : recordAt s i with
  | none => exact .refl s
  | some r =>
    dsimp only
    split
    next hc =>
      split
      next hst =>
        refine keepsSupply_cycleOutcome fun y hy => ?_
        obtain rfl := Option.some.inj (h.symm.trans hy)
        exact ⟨hc.1, hst⟩
      next hst =>
        exact fun hs => keepsSupply_setRecord h ⟨rfl, rfl, Iff.rfl, (recordFits_of_sound hs h).paused, (recordFits_of_sound hs h).pulling⟩ hs
      · exact .refl s
    · exact .refl s

theorem keepsSupply_protectionExpiry {s : State} (hrails : ∀ r, (rankAt s r).rail < 4) (i : Nat) :
    KeepsSupply s (protectionExpiry s i) := by
  unfold protectionExpiry
  cases h : recordAt s i with
  | none => exact .refl s
  | some r =>
    dsimp only
    split
    next hc =>
      refine KeepsSupply.trans (fun hs => ?_) (((keepsSupply_bump _ _).trans (keepsSupply_raise _ _ _)).trans
        (keepsSupply_workIfFell s _ (hrails r.rank)))
      have hnot : r.state ≠ .waiting := by rcases hc.1 with hst | hst <;> rw [hst] <;> decide
      have hpaused : ¬ r.paused = true := fun hp => by
        have := ((recordFits_of_sound hs h).paused hp).2
        rcases hc.1 with hst | hst <;> exact absurd (this.symm.trans hst) (by decide)
      exact keepsSupply_storeRecord (x := { r with state := .locked, charge := 0, phase := none, protection := none }) h
        ⟨rfl, rfl, iff_of_false (by simp) hnot, fun hp => absurd hp hpaused, fun hp => absurd hp (by simp)⟩
        (Nat.zero_le _) hs
    · exact .refl s

end Sys2Proof.Proofs.SupplyLists
end

section
/-! PROOFS. What one step can do to the relay, said once (R161 to R168, 4.10.3): `Move s t`, the parts that every request's
work, every event and a millisecond are made of. A fact that every move keeps is kept by every step. -/

namespace Sys2Proof.Proofs.Moving

open Sys2Proof.Machine Sys2Proof.Proofs.Steps Sys2Proof.Proofs.Playing Sys2Proof.Proofs.Registration
open Sys2Proof.Proofs.Draw Sys2Proof.Proofs.SupplyLists Sys2Proof.Proofs.ServicePort

/-! ### The chamber links (R148 to R155) -/

/-- t is s but for the links, the fault set, the counters and the flags. -/
def ChamberFrame (s t : State) : Prop :=
  t = { s with
    links := t.links, faults := t.faults, counters := t.counters, pendingCauses := t.pendingCauses
    details := t.details, firstCause := t.firstCause }

theorem ChamberFrame.trans {s t u : State} (h : ChamberFrame s t) (k : ChamberFrame t u) : ChamberFrame s u := by
  unfold ChamberFrame at *
  rw [h] at k
  exact k

/-- What the links' events do: the entries stand, the miss counts stay within 15 and the fault set sound. -/
structure OnLinks (s t : State) : Prop where
  frame : ChamberFrame s t
  entry : ∀ l, (linkAt t l).entry = (linkAt s l).entry
  miss : (∀ l, (linkAt s l).miss ≤ 15) → ∀ l, (linkAt t l).miss ≤ 15
  faults : FaultsSound s → FaultsSound t

namespace OnLinks

theorem refl (s : State) : OnLinks s s := ⟨rfl, fun _ => rfl, id, id⟩

theorem trans {s t u : State} (h : OnLinks s t) (k : OnLinks t u) : OnLinks s u where
  frame := h.frame.trans k.frame
  entry := fun l => (k.entry l).trans (h.entry l)
  miss := fun hs => k.miss (h.miss hs)
  faults := fun hs => k.faults (h.faults hs)

theorem foldl {α : Type} {f : State → α → State} (h : ∀ s a, OnLinks s (f s a)) (xs : List α) (s : State) :
    OnLinks s (xs.foldl f s) := by
  induction xs generalizing s with
  | nil => exact refl s
  | cons a t ih => exact (h s a).trans (ih _)

end OnLinks

/-- A link changed but for its entry. -/
theorem onLinks_setLink (s : State) (l : Nat) {x : Link} (hentry : x.entry = (linkAt s l).entry)
    (hmiss : (linkAt s l).miss ≤ 15 → x.miss ≤ 15) : OnLinks s (setLink s l x) := by
  have entry (m : Nat) : (linkAt (setLink s l x) m).entry = (linkAt s m).entry := by
    rw [linkAt_setLink]
    split
    next h => rw [hentry, h.1]
    · rfl
  refine ⟨rfl, entry, fun h m => ?_, fun ⟨hasc, hvalid, hslots⟩ => ⟨hasc, hvalid, fun m => ?_⟩⟩
  · rw [linkAt_setLink]
    split
    · exact hmiss (h l)
    · exact h m
  · rw [entry]
    exact hslots m

theorem onLinks_bump (s : State) (c : Counter) : OnLinks s (bump s c) := ⟨rfl, fun _ => rfl, id, id⟩

theorem onLinks_raise (s : State) (c : Cause) (d : Detail) : OnLinks s (raise s c d) := ⟨rfl, fun _ => rfl, id, id⟩

theorem onLinks_beginFrame (s : State) (l : Nat) : OnLinks s (beginFrame s l) := onLinks_setLink s l rfl id

theorem onLinks_frameAtClose (s : State) (l : Nat) : OnLinks s (frameAtClose s l) := by
  unfold frameAtClose
  dsimp only
  split
  · exact onLinks_beginFrame s l
  · exact .refl s

theorem entry_closed (x : Link) : (closed x).entry = x.entry ∧ (closed x).miss = x.miss := by
  unfold closed
  split <;> exact ⟨rfl, rfl⟩

theorem onLinks_closed (s : State) (l : Nat) : OnLinks s (setLink s l (closed (linkAt s l))) :=
  onLinks_setLink s l (entry_closed _).1 fun h => (entry_closed (linkAt s l)).2.trans_le h

theorem onLinks_missedReply (s : State) (l : Nat) : OnLinks s (missedReply s l) := by
  have counted {x : Link} (hentry : x.entry = (linkAt s l).entry) (hmiss : x.miss ≤ 15) :
      OnLinks s (setLink (bump s (.repliesMissed l)) l x) :=
    (onLinks_bump s _).trans (onLinks_setLink _ l hentry fun _ => hmiss)
  unfold missedReply
  dsimp only
  split
  · exact OnLinks.trans (counted (by rfl) (Nat.min_le_left _ _)) (onLinks_raise _ _ _)
  · exact counted (by rfl) (Nat.min_le_left _ _)

theorem mem_insertAscending {n m : Nat} {xs : List Nat} : m ∈ insertAscending n xs ↔ m = n ∨ m ∈ xs := by
  induction xs with
  | nil => simp [insertAscending]
  | cons x xs ih =>
    unfold insertAscending
    split
    · rw [List.mem_cons]
    split
    next h => simp [h]
    · rw [List.mem_cons, ih, List.mem_cons]
      exact or_left_comm

/-- An ascending list with a number put in its place is ascending. -/
theorem pairwise_insertAscending {n : Nat} {xs : List Nat} (h : xs.Pairwise (fun a b => a < b)) :
    (insertAscending n xs).Pairwise (fun a b => a < b) := by
  induction xs with
  | nil => simp [insertAscending]
  | cons x xs ih =>
    obtain ⟨hx, hxs⟩ := List.pairwise_cons.mp h
    unfold insertAscending
    split
    next hlt =>
      refine List.pairwise_cons.mpr ⟨fun m hm => ?_, h⟩
      rcases List.mem_cons.mp hm with rfl | hm
      · exact hlt
      · exact hlt.trans (hx m hm)
    split
    · exact h
    next hge hne =>
      refine List.pairwise_cons.mpr ⟨fun m hm => ?_, ih hxs⟩
      rcases mem_insertAscending.mp hm with rfl | hm
      · omega
      · exact hx m hm

theorem addFault_frame (s : State) (n : Nat) : ChamberFrame s (addFault s n) ∧ (addFault s n).links = s.links := by
  unfold addFault
  split <;> exact ⟨rfl, rfl⟩

theorem addFaults_frame (xs : List Nat) (s : State) :
    ChamberFrame s (xs.foldl addFault s) ∧ (xs.foldl addFault s).links = s.links := by
  induction xs generalizing s with
  | nil => exact ⟨rfl, rfl⟩
  | cons n xs ih =>
    obtain ⟨hframe, hlinks⟩ := addFault_frame s n
    obtain ⟨hframes, hkept⟩ := ih (addFault s n)
    exact ⟨hframe.trans hframes, hkept.trans hlinks⟩

/-- A valid outlet reported keeps the fault set sound (R155, R156). -/
theorem faultsSound_addFault {s : State} {n : Nat} (hn : validOutlet n = true) (hs : FaultsSound s) :
    FaultsSound (addFault s n) := by
  unfold addFault
  split
  · exact hs
  · obtain ⟨hasc, hvalid, hslots⟩ := hs
    refine ⟨pairwise_insertAscending hasc, fun m hm => ?_, hslots⟩
    rcases mem_insertAscending.mp hm with rfl | hm
    · exact hn
    · exact hvalid m hm

/-- Reports of outlets that are valid where the fault set is sound. -/
theorem onLinks_addFaults {s : State} {xs : List Nat} (hxs : FaultsSound s → ∀ n ∈ xs, validOutlet n = true) :
    OnLinks s (xs.foldl addFault s) := by
  obtain ⟨hframe, hlinks⟩ := addFaults_frame xs s
  have hlink (l : Nat) : linkAt (xs.foldl addFault s) l = linkAt s l := by rw [linkAt, hlinks, linkAt]
  refine ⟨hframe, fun l => by rw [hlink], fun h l => by rw [hlink]; exact h l, fun hs => ?_⟩
  have hvalid := hxs hs
  clear hframe hlinks hlink hxs
  induction xs generalizing s with
  | nil => exact hs
  | cons n xs ih =>
    exact ih (faultsSound_addFault (hvalid n List.mem_cons_self) hs) fun m hm => hvalid m (List.mem_cons_of_mem _ hm)

/-- What a reply of at most 48 slots reports are valid outlets. -/
theorem validOutlet_of_reported {l slots n : Nat} {words : List Word} (hl : l < 4) (hslots : slots ≤ 48)
    (h : n ∈ reportedFaults l slots words) : validOutlet n = true := by
  unfold reportedFaults at h
  simp only [List.mem_map, List.mem_filter, List.mem_range] at h
  obtain ⟨pos, ⟨hpos, -⟩, rfl⟩ := h
  rw [FaultSet.validOutlet_iff, outlet]
  omega

/-- A good reply: its fault words are those of at most 48 slots where the fault set is sound (R146, R155). -/
theorem onLinks_goodReply {s : State} {l : Nat} (hl : l < 4) (words : List Word) : OnLinks s (goodReply s l words) := by
  have heard {x : Link} (hentry : x.entry = (linkAt s l).entry) (hmiss : x.miss ≤ 15) :
      OnLinks s (setLink s l x) := onLinks_setLink s l hentry fun _ => hmiss
  refine OnLinks.trans (heard (by rfl) (Nat.zero_le _)) (onLinks_addFaults fun hs n hn => ?_)
  refine validOutlet_of_reported hl ?_ hn
  have hslots := hs.2.2 l
  rw [linkAt_setLink, if_pos ⟨rfl, hl⟩] at hslots
  exact hslots

theorem onLinks_judgeReply {s : State} {l : Nat} (hl : l < 4) (words : List Word) :
    OnLinks s (judgeReply s l words) := by
  unfold judgeReply
  split
  · exact onLinks_goodReply hl words
  · exact onLinks_missedReply s l

/-! ### What the console, the pistons and the registration writes do -/

/-- What plays: by claims, releases and quiet changes, with the registration kept sound; and outside RUN, with the ports
at rest, neither the ports, the tremulant outputs nor the table move (R166). -/
structure Played (s t : State) : Prop where
  sounds : Sounds s t
  reg : KeepsReg s t
  rests : s.mode ≠ .run → PortAtRest s.portA → PortAtRest s.portB →
    PortAtRest t.portA ∧ PortAtRest t.portB ∧ t.tremulants = s.tremulants ∧ t.table = s.table

theorem Played.inRun {s t : State} (h : s.mode = .run) (sounds : Sounds s t) (reg : KeepsReg s t) : Played s t :=
  ⟨sounds, reg, fun hmode => absurd h hmode⟩

theorem Played.still {s t : State} (sounds : Sounds s t) (reg : KeepsReg s t)
    (h : (∀ p, PortAtRest (portAt s p)) → t = s) : Played s t := by
  refine ⟨sounds, reg, fun _ hA hB => ?_⟩
  obtain rfl := h fun p => by cases p <;> assumption
  exact ⟨hA, hB, rfl, rfl⟩

/-- Claims and releases leave the links. -/
theorem links_of_sounds {s t : State} (h : Sounds s t) : t.links = s.links :=
  h.keeps (P := fun t => t.links = s.links) (fun q hs => q.links.trans hs)
    (fun u c rank pipe hs => by rw [tableFrame_claimRequest u c rank pipe]; exact hs)
    (fun u pat hs => by rw [tableFrame_releaseRequest u pat]; exact hs) rfl

theorem played_startMarkArrives (s : State) (p : PortId) (bit : Fin 16) : Played s (startMarkArrives s p bit) := by
  refine .still (sounds_startMarkArrives s p bit) (keepsReg_startMarkArrives s p bit) fun h => ?_
  obtain ⟨-, hreceiver, -⟩ := h p
  simp [startMarkArrives, markAtBoundary, hreceiver]

theorem played_slotsArrive (s : State) (p : PortId) (slots : List Word) : Played s (slotsArrive s p slots) := by
  refine .still (sounds_slotsArrive s p slots) (keepsReg_slotsArrive s p slots) fun h => ?_
  obtain ⟨-, hreceiver, -, -, -, hframing, -⟩ := h p
  simp [slotsArrive, takeSlots, hreceiver, hframing]

theorem played_driveExpiry (s : State) (p : PortId) : Played s (driveExpiry s p) := by
  refine .still (sounds_driveExpiry s p) (keepsReg_driveExpiry s p) fun h => ?_
  obtain ⟨-, -, -, -, hslot, -⟩ := h p
  simp [driveExpiry, hslot, RecallSlot.idle]

/-- A watchdog expiry: a frame overtook it, or the port is lost, or nothing (R139, R140). -/
theorem exec_watchdogExpiry_played {s t : State} {p : PortId} (h : exec (.watchdogExpiry p) s = .next t) :
    Played s t := by
  unfold exec execWatchdogExpiry at h
  dsimp only at h
  split at h
  next hovertaken =>
    obtain rfl := Host.Outcome.next.inj h
    refine .still (sounds_setPort s p) (keepsReg_setPort s p _) fun hrest => ?_
    obtain ⟨-, -, -, -, -, -, hnot⟩ := hrest p
    exact absurd (hovertaken.symm.trans hnot) (by decide)
  · split at h
    next honline =>
      obtain rfl := Host.Outcome.next.inj h
      refine .still (sounds_losePort s p) (keepsReg_losePort s p) fun hrest => ?_
      exact absurd (honline.1.symm.trans (hrest p).1) (by decide)
    · obtain rfl := Host.Outcome.next.inj h
      exact .still .refl (.refl s) fun _ => rfl

/-- A registration write outside RUN stores an entry and looks at nothing else. -/
theorem Played.stored {s t : State} (sounds : Sounds s t) (reg : KeepsReg s t)
    (h : s.mode ≠ .run → t.portA = s.portA ∧ t.portB = s.portB ∧ t.tremulants = s.tremulants ∧ t.table = s.table) :
    Played s t := by
  refine ⟨sounds, reg, fun hmode hA hB => ?_⟩
  obtain ⟨hportA, hportB, htrem, htable⟩ := h hmode
  exact ⟨hportA ▸ hA, hportB ▸ hB, htrem, htable⟩

/-- A port's entry or maps written: what rests stays at rest. -/
theorem played_configurePort (s : State) (p : PortId) {c : ConsolePort} (hlevel : c.level = (portAt s p).level)
    (hrest : PortAtRest (portAt s p) → PortAtRest c) : Played s (setPort s p c) := by
  refine ⟨sounds_setPort s p fun h => hlevel.trans_le h, keepsReg_setPort s p c, fun _ hA hB => ?_⟩
  cases p
  · exact ⟨hrest hA, hB, rfl, rfl⟩
  · exact ⟨hA, hrest hB, rfl, rfl⟩

theorem played_writeStop (s : State) {n : Nat} (hn : n < 256) (e : StopEntry) :
    Played s (if s.mode = .run then rewriteStop s n e else setStop s n e) := by
  split
  next hrun => exact .inRun hrun (sounds_rewriteStop s n e) (keepsReg_rewriteStop hn e)
  next hrun =>
    exact .stored (quiet_setStop s n e).sounds (keepsReg_outside_run hrun rfl) fun _ => ⟨rfl, rfl, rfl, rfl⟩

theorem played_storeGrant (s : State) (d : Nat) (q : Option PortId) : Played s (storeGrant s d q) := by
  refine .stored (sounds_storeGrant s d q) (keepsReg_storeGrant s d q) fun hrun => ?_
  rw [storeGrant, if_neg hrun]
  exact ⟨rfl, rfl, rfl, rfl⟩

theorem played_storeCrescendo (s : State) {n : Nat} (hn : n ≠ 0) (x : StopSet) : Played s (storeCrescendo s n x) := by
  refine .stored (sounds_storeCrescendo s n x) (keepsReg_storeCrescendo s hn x) fun hrun => ?_
  rw [storeCrescendo, if_neg fun h => hrun h.1]
  exact ⟨rfl, rfl, rfl, rfl⟩

theorem played_storeExpr {s : State} {n : Nat} {e : ExprEntry} (hn : n < 8) (h : exprFault s n e = none) :
    Played s (storeExpr s n e) := by
  refine .stored (sounds_storeExpr s n e) (keepsReg_storeExpr hn (noSecondCrescendo_of_exprFault h)) fun hrun => ?_
  rw [storeExpr, driveToZero, if_neg fun h => hrun h.1]
  exact ⟨rfl, rfl, rfl, rfl⟩

/-! ### The moves -/

/-- A record's timer expires: records move on or are freed, and the draws and the lists stay in step. -/
structure Expires (s t : State) : Prop where
  evolves : Evolves s t
  draw : KeepsDraw s t
  supply : (∀ r, (rankAt s r).rail < 4) → KeepsSupply s t

/-- One part of a step. -/
inductive Move (s : State) : State → Prop where
  | aside {t : State} : Aside s t → Move s t
  | played {t : State} : Played s t → Move s t
  | rank {r : Nat} {e : RankEntry} : s.mode = .config ∨ s.mode = .run → e.rail < 4 →
      (usesHold e.kind = true → 1 ≤ e.pull) → rankFault s r e = none → Move s (storeRank s r e)
  | link (l : Nat) {e : LinkEntry} : s.mode = .config → e.slots ≤ 48 →
      Move s (setLink s l { linkAt s l with entry := e })
  | rail (k : Nat) (e : RailEntry) : s.mode = .config → Move s (setRail s k { railAt s k with entry := e })
  | start : s.mode = .config → Move s (startRun s)
  | stop : s.mode = .run → Move s (stopRun s)
  | restart : Move s (restarted s)
  | reset (line : ResetLine) :
      Move s { State.reset with resetLine := line, pending := s.pending, choices := s.choices }
  | expiry {t : State} : Expires s t → Move s t
  | chamber {t : State} : OnLinks s t →
      (s.mode = .config → ∃ l, l < 4 ∧ linkAt s l ≠ Link.idle (linkAt s l).entry) → Move s t
  | completes : quiesceDone s = true → Move s (completeQuiesce s)
  | tick : Move s (passMillisecond s)

/-- A chain of moves. -/
def Moves (s t : State) : Prop := Relation.ReflTransGen Move s t

namespace Moves

theorem refl (s : State) : Moves s s := Relation.ReflTransGen.refl

theorem trans {s t u : State} (h : Moves s t) (k : Moves t u) : Moves s u := Relation.ReflTransGen.trans h k

theorem keeps {P : State → Prop} (h : ∀ {s t}, Move s t → P s → P t) {s t : State} (hm : Moves s t) (hs : P s) : P t := by
  induction hm with
  | refl => exact hs
  | tail _ m ih => exact h m ih

end Moves

theorem Move.moves {s t : State} (h : Move s t) : Moves s t := Relation.ReflTransGen.single h

theorem moves_settleMode (s : State) : Moves s (settleMode s) := by
  unfold settleMode
  split
  next h => exact (Move.completes h).moves
  · exact .refl s

theorem moves_played {s t : State} (h : Played s t) : Moves s t := (Move.played h).moves

theorem moves_aside {s t : State} (h : Aside s t) : Moves s t := (Move.aside h).moves

/-! ### What lies aside (R112, R150, R170 to R173) -/

theorem aside_stores (s : State) (combination : Vector StopSet 640) (mutes : Vector MuteWindow 8) :
    Aside s { s with combination := combination, mutes := mutes } :=
  ⟨rfl, rfl, rfl, rfl, rfl, rfl, rfl, rfl, rfl, rfl, rfl, rfl, rfl, rfl, List.Sublist.refl _, List.Sublist.refl _, id⟩

theorem aside_flags (s : State) (pending enabled : CauseSet) (counters : Vector Word 24) :
    Aside s { s with pendingCauses := pending, enabledCauses := enabled, counters := counters } :=
  ⟨rfl, rfl, rfl, rfl, rfl, rfl, rfl, rfl, rfl, rfl, rfl, rfl, rfl, rfl, List.Sublist.refl _, List.Sublist.refl _, id⟩

theorem aside_lists (s : State) (overflow : Bool) {faults : List Nat} {dirty : List (Nat × Nat)}
    (hfaults : faults.Sublist s.faults) (hdirty : dirty.Sublist s.dirty) :
    Aside s { s with faults := faults, dirty := dirty, dirtyOverflow := overflow } :=
  ⟨rfl, rfl, rfl, rfl, rfl, rfl, rfl, rfl, rfl, rfl, rfl, rfl, rfl, rfl, hfaults, hdirty, id⟩

/-! ### The requests' work -/

section Work

variable {params : List Byte} {s : State}

theorem takenPlaying_iff {m : Mode} : takenPlaying m = true ↔ m = .config ∨ m = .run := by
  cases m <;> simp [takenPlaying]

theorem takenInConfig_iff {m : Mode} : takenInConfig m = true ↔ m = .config := by
  cases m <;> simp [takenInConfig]

theorem takenInRun_iff {m : Mode} : takenInRun m = true ↔ m = .run := by
  cases m <;> simp [takenInRun]

/-- A rank entry that is read names one of the four rails, and pulls at least one unit where it is held (R2). -/
theorem fields_of_readRankEntry {e : RankEntry} (h : readRankEntry params 1 = some e) :
    e.rail < 4 ∧ (usesHold e.kind = true → 1 ≤ e.pull) := by
  unfold readRankEntry at h
  split at h
  · exact absurd h (by simp)
  next k _ =>
    dsimp only at h
    split at h
    next hfits =>
      obtain rfl := Option.some.inj h
      have hfit := (Bool.and_eq_true_iff.mp hfits).1
      cases k <;> simp [rankFieldsFit, rankEntryAt, within, usesNotes, usesHold, keepIf] at hfit ⊢ <;> omega
    · exact absurd h (by simp)

theorem moves_writeRank (h : takenPlaying s.mode = true) : Moves s (writeRankWork params s).1 := by
  unfold writeRankWork
  dsimp only
  split
  · exact .refl s
  split
  · exact .refl s
  next e hread =>
    split
    · exact .refl s
    next hfault =>
      obtain ⟨hrail, hpull⟩ := fields_of_readRankEntry hread
      exact (Move.rank (takenPlaying_iff.mp h) hrail hpull hfault).moves

theorem moves_writeStop : Moves s (writeStopWork params s).1 := by
  unfold writeStopWork
  split
  · exact .refl s
  next e _ => exact moves_played (played_writeStop s (byteAt_lt params 0) e)

theorem moves_writeSlotMap : Moves s (writeSlotMapWork params s).1 := by
  unfold writeSlotMapWork
  split
  next p e _ _ =>
    split
    · exact .refl s
    · exact moves_played (played_configurePort s p (by rfl) fun h => h)
  · exact .refl s

theorem moves_writeReturnMap : Moves s (writeReturnMapWork params s).1 := by
  unfold writeReturnMapWork
  split
  next p e _ _ =>
    split
    · exact .refl s
    · exact moves_played (played_configurePort s p (by rfl) fun h => h)
  · exact .refl s

theorem moves_writePort : Moves s (writePortWork params s).1 := by
  unfold writePortWork
  split
  next p e _ _ => exact moves_played (played_configurePort s p (by rfl) fun h => h)
  · exact .refl s

theorem moves_writeLink (h : takenInConfig s.mode = true) : Moves s (writeLinkWork params s).1 := by
  unfold writeLinkWork
  dsimp only
  split
  · exact .refl s
  next e hread =>
    split
    · exact .refl s
    · have hslots : e.slots ≤ 48 := by
        unfold readLinkEntry at hread
        dsimp only at hread
        split at hread
        · split at hread
          next hfits =>
            obtain rfl := Option.some.inj hread
            simp only [Bool.and_eq_true, within, decide_eq_true_eq] at hfits
            obtain ⟨⟨⟨⟨⟨-, hle⟩, -⟩, -⟩, -⟩, -⟩ := hfits
            exact hle
          · exact absurd hread (by simp)
        · exact absurd hread (by simp)
      exact (Move.link _ (takenInConfig_iff.mp h) hslots).moves

theorem moves_writeRail (h : takenInConfig s.mode = true) : Moves s (writeRailWork params s).1 := by
  unfold writeRailWork
  dsimp only
  split
  · exact .refl s
  · split
    · exact .refl s
    · exact (Move.rail _ _ (takenInConfig_iff.mp h)).moves

theorem moves_writeGrant : Moves s (writeGrantWork params s).1 := by
  unfold writeGrantWork
  dsimp only
  split
  · exact .refl s
  · split
    · exact .refl s
    · exact moves_played (played_storeGrant s _ _)

theorem moves_writeCombination : Moves s (writeCombinationWork params s).1 := by
  unfold writeCombinationWork
  dsimp only
  split
  · exact .refl s
  · exact moves_aside (aside_stores s _ s.mutes)

theorem moves_writeCrescendo : Moves s (writeCrescendoWork params s).1 := by
  unfold writeCrescendoWork
  dsimp only
  split
  · exact .refl s
  next hn => exact moves_played (played_storeCrescendo s (fun h => hn (.inl h)) _)

theorem moves_writeExpression : Moves s (writeExpressionWork params s).1 := by
  unfold writeExpressionWork
  dsimp only
  split
  · exact .refl s
  next hn =>
    split
    · exact .refl s
    · split
      · exact .refl s
      next hfault => exact moves_played (played_storeExpr (by omega) hfault)

theorem moves_writeMute : Moves s (writeMuteWork params s).1 := by
  unfold writeMuteWork
  dsimp only
  split
  · exact .refl s
  · split
    · exact .refl s
    · exact moves_aside (aside_stores s s.combination _)

theorem moves_start (h : takenInConfig s.mode = true) : Moves s (startWork s).1 := by
  unfold startWork
  split
  · exact .refl s
  · exact (Move.start (takenInConfig_iff.mp h)).moves

theorem moves_release (h : takenInRun s.mode = true) (pat : Pattern) : Moves s (releaseRequest s pat) :=
  (Move.played (.inRun (takenInRun_iff.mp h) (Sounds.refl.release pat)
    (keepsReg_of_tableFrame (tableFrame_releaseRequest s pat)))).moves

theorem moves_silence (h : takenInRun s.mode = true) : Moves s (silenceWork params s).1 := by
  unfold silenceWork
  split
  · exact .refl s
  · exact moves_release h _

theorem moves_recall (h : takenInRun s.mode = true) : Moves s (recallWork params s).1 := by
  unfold recallWork
  split
  · exact .refl s
  · split
    · exact .refl s
    · exact moves_played (.inRun (takenInRun_iff.mp h) (sounds_pistonAction s _ _) (keepsReg_pistonAction s _ _))

theorem moves_setLevel (h : takenInRun s.mode = true) : Moves s (setLevelWork params s).1 := by
  unfold setLevelWork
  split
  · exact .refl s
  · split
    · exact .refl s
    next hlevel =>
      exact (Move.played (.inRun (takenInRun_iff.mp h) (sounds_setPortLevel s _ fun _ => by omega)
        (keepsReg_setPort s _ _))).moves

theorem moves_clearAttention : Moves s (clearAttentionWork params s).1 := by
  unfold clearAttentionWork
  split
  · exact .refl s
  · exact moves_aside (aside_flags s _ s.enabledCauses s.counters)

theorem moves_writeAttentionEnable : Moves s (writeAttentionEnableWork params s).1 := by
  unfold writeAttentionEnableWork
  split
  · exact .refl s
  · exact moves_aside (aside_flags s s.pendingCauses _ s.counters)

theorem moves_clearFaultOne : Moves s (clearFaultOneWork params s).1 := by
  unfold clearFaultOneWork
  dsimp only
  split
  · exact .refl s
  split
  · exact .refl s
  · exact moves_aside (aside_lists s s.dirtyOverflow List.filter_sublist (List.Sublist.refl _))

/-- A request that only answers. -/
theorem moves_lookup : Moves s (lookupWork params s).1 := by
  unfold lookupWork
  split <;> exact .refl s

theorem moves_tableRead : Moves s (tableReadWork params s).1 := by
  unfold tableReadWork
  split <;> exact .refl s

theorem moves_nextRecord : Moves s (nextRecordWork params s).1 := by
  unfold nextRecordWork
  split
  · exact .refl s
  split
  · exact .refl s
  · split <;> exact .refl s

theorem moves_nextFault : Moves s (nextFaultWork params s).1 := by
  unfold nextFaultWork
  split
  · exact .refl s
  · split <;> exact .refl s

end Work

/-- The work of every request is a chain of moves. -/
theorem moves_work {c : Instr} {row : RequestRow} {s : State} (hrow : requestRow c = some row)
    (h : row.taken s.mode = true) : Moves s (row.work s).1 := by
  cases c <;> cases hrow
  case tableRead => exact moves_tableRead
  case tableWriteRank => exact moves_writeRank h
  case tableWriteStop => exact moves_writeStop
  case tableWriteSlotMap => exact moves_writeSlotMap
  case tableWriteReturnMap => exact moves_writeReturnMap
  case tableWritePort => exact moves_writePort
  case tableWriteLink => exact moves_writeLink h
  case tableWriteRail => exact moves_writeRail h
  case tableWriteGrant => exact moves_writeGrant
  case tableWriteCombination => exact moves_writeCombination
  case tableWriteCrescendo => exact moves_writeCrescendo
  case tableWriteExpression => exact moves_writeExpression
  case tableWriteMute => exact moves_writeMute
  case start => exact moves_start h
  case stop => exact (Move.stop (takenInRun_iff.mp h)).moves.trans (moves_settleMode _)
  case restart => exact Move.restart.moves
  case allClear => exact moves_release h _
  case recallPiston => exact moves_recall h
  case setLevel => exact moves_setLevel h
  case lookup => exact moves_lookup
  case nextRecord => exact moves_nextRecord
  case silence => exact moves_silence h
  case clearAttention => exact moves_clearAttention
  case writeAttentionEnable => exact moves_writeAttentionEnable
  case clearCounters => exact moves_aside (aside_flags s s.pendingCauses s.enabledCauses _)
  case readDirty => exact moves_aside (aside_lists s false (List.Sublist.refl _) (List.nil_sublist _))
  case clearFaultOne => exact moves_clearFaultOne
  case clearFaultAll => exact moves_aside (aside_lists s s.dirtyOverflow (List.nil_sublist _) (List.Sublist.refl _))
  case nextFault => exact moves_nextFault
  all_goals exact .refl s

/-! ### The events -/

section Expiries

variable (s : State) (i : Nat)

theorem expires_wait : Expires s (waitExpiry s i) :=
  ⟨evolves_waitExpiry s i, keepsDraw_waitExpiry s i, fun _ => keepsSupply_waitExpiry s i⟩

theorem expires_pull : Expires s (pullExpiry s i) :=
  ⟨evolves_pullExpiry s i, keepsDraw_pullExpiry s i, fun h => keepsSupply_pullExpiry h i⟩

theorem expires_settle : Expires s (settleExpiry s i) :=
  ⟨evolves_settleExpiry s i, keepsDraw_settleExpiry s i, fun _ => keepsSupply_settleExpiry s i⟩

theorem expires_strike : Expires s (strikeExpiry s i) :=
  ⟨evolves_strikeExpiry s i, keepsDraw_strikeExpiry s i, fun h => keepsSupply_strikeExpiry h i⟩

theorem expires_cycle : Expires s (cycleExpiry s i) :=
  ⟨evolves_cycleExpiry s i, keepsDraw_cycleExpiry s i, fun _ => keepsSupply_cycleExpiry s i⟩

theorem expires_protection : Expires s (protectionExpiry s i) :=
  ⟨evolves_protectionExpiry s i, keepsDraw_protectionExpiry s i, fun h => keepsSupply_protectionExpiry h i⟩

end Expiries

/-- A link that is not as it is IDLE. -/
theorem awake_of {s : State} {l : Nat} (hl : l < 4) (h : linkAt s l ≠ Link.idle (linkAt s l).entry) :
    s.mode = .config → ∃ l, l < 4 ∧ linkAt s l ≠ Link.idle (linkAt s l).entry :=
  fun _ => ⟨l, hl, h⟩

theorem moves_chamber {s t : State} {l : Nat} (h : OnLinks s t) (hl : l < 4)
    (hawake : linkAt s l ≠ Link.idle (linkAt s l).entry) : Moves s t :=
  (Move.chamber h (awake_of hl hawake)).moves

theorem not_idle_of_canBegin {x : Link} (h : canBegin x = true) : x ≠ Link.idle x.entry := by
  intro hidle
  rw [hidle] at h
  exact absurd h (by simp [canBegin, Link.idle])

section Links

variable {s t : State} {l : Fin 4}

theorem moves_beginFrame (h : canBegin (linkAt s l.val) = true) : Moves s (beginFrame s l.val) :=
  moves_chamber (onLinks_beginFrame s l.val) l.isLt (not_idle_of_canBegin h)

theorem moves_periodTimerExpiry (h : exec (.periodTimerExpiry l) s = .next t) : Moves s t := by
  unfold exec execPeriodTimerExpiry at h
  dsimp only at h
  split at h
  · obtain rfl := Host.Outcome.next.inj h
    exact .refl s
  next hperiod =>
    have hawake : linkAt s l.val ≠ Link.idle (linkAt s l.val).entry := by
      intro hidle
      rw [hidle] at hperiod
      exact hperiod rfl
    split at h
    next hbegin =>
      obtain rfl := Host.Outcome.next.inj h
      exact moves_beginFrame hbegin
    split at h
    · obtain rfl := Host.Outcome.next.inj h
      exact moves_chamber (onLinks_setLink s l.val (by rfl) fun h => h) l.isLt hawake
    · obtain rfl := Host.Outcome.next.inj h
      exact moves_chamber (onLinks_setLink s l.val (by rfl) fun h => h) l.isLt hawake

theorem moves_keepAliveExpiry (h : exec (.keepAliveExpiry l) s = .next t) : Moves s t := by
  unfold exec execKeepAliveExpiry at h
  dsimp only at h
  split at h
  next hbegin =>
    obtain rfl := Host.Outcome.next.inj h
    exact moves_beginFrame (Bool.and_eq_true_iff.mp hbegin).2
  · obtain rfl := Host.Outcome.next.inj h
    exact .refl s

theorem moves_onDemandFrameStart (h : exec (.onDemandFrameStart l) s = .next t) : Moves s t := by
  unfold exec execOnDemandFrameStart at h
  dsimp only at h
  split at h
  next hbegin =>
    obtain rfl := Host.Outcome.next.inj h
    simp only [Bool.and_eq_true] at hbegin
    obtain ⟨⟨-, hcan⟩, -⟩ := hbegin
    exact moves_beginFrame hcan
  · obtain rfl := Host.Outcome.next.inj h
    exact .refl s

theorem moves_frameSent (h : exec (.frameSent l) s = .next t) : Moves s t := by
  unfold exec execFrameSent at h
  dsimp only at h
  split at h
  next hsending =>
    obtain rfl := Host.Outcome.next.inj h
    refine moves_chamber (OnLinks.trans (onLinks_bump s _) (onLinks_setLink _ l.val (by rfl) fun h => h)) l.isLt ?_
    intro hidle
    rw [hidle] at hsending
    exact absurd hsending (by simp [Link.idle])
  · obtain rfl := Host.Outcome.next.inj h
    exact .refl s

theorem moves_frameAtClose (s : State) (l : Fin 4) : Moves s (frameAtClose s l.val) := by
  unfold frameAtClose
  dsimp only
  split
  next h => exact moves_beginFrame (Bool.and_eq_true_iff.mp h).1
  · exact .refl s

theorem moves_replyPeriodClose {words : List Word} (h : exec (.replyPeriodClose l words) s = .next t) : Moves s t := by
  unfold exec execReplyPeriodClose at h
  dsimp only at h
  split at h
  next hreply =>
    have judged := (onLinks_judgeReply l.isLt words (s := s)).trans (onLinks_closed _ l.val)
    have hawake : linkAt s l.val ≠ Link.idle (linkAt s l.val).entry := by
      intro hidle
      rw [hidle] at hreply
      exact absurd hreply (by simp [Link.idle])
    obtain rfl := Host.Outcome.next.inj h
    refine (moves_chamber judged l.isLt hawake).trans ?_
    split
    next hdone => exact (Move.completes hdone).moves
    · exact moves_frameAtClose _ l
  · obtain rfl := Host.Outcome.next.inj h
    exact .refl s

end Links

/-- Every event is a chain of moves. -/
theorem moves_event {c : Instr} {s t : State} (hc : isEvent c = true) (h : exec c s = .next t) : Moves s t := by
  cases c
  case watchdogExpiry p => exact moves_played (exec_watchdogExpiry_played h)
  case periodTimerExpiry l => exact moves_periodTimerExpiry h
  case keepAliveExpiry l => exact moves_keepAliveExpiry h
  case onDemandFrameStart l => exact moves_onDemandFrameStart h
  case frameSent l => exact moves_frameSent h
  case replyPeriodClose l words => exact moves_replyPeriodClose h
  all_goals first
    | exact absurd hc Bool.false_ne_true
    | obtain rfl := Host.Outcome.next.inj h
  case powerOnReset line => exact (Move.reset line).moves
  case startMark mark => exact moves_played (played_startMarkArrives s _ _)
  case earlyStartMark mark => exact moves_played (played_startMarkArrives s _ _)
  case scanFrame p slots => exact moves_played (played_slotsArrive s p slots)
  case driveTimerExpiry p => exact moves_played (played_driveExpiry s p)
  case waitTimerExpiry i => exact (Move.expiry (expires_wait s i.val)).moves
  case pullTimerExpiry i => exact (Move.expiry (expires_pull s i.val)).moves
  case settleTimerExpiry i => exact (Move.expiry (expires_settle s i.val)).moves.trans (moves_settleMode _)
  case strikeTimerExpiry i => exact (Move.expiry (expires_strike s i.val)).moves.trans (moves_settleMode _)
  case cycleTimerExpiry i => exact (Move.expiry (expires_cycle s i.val)).moves
  case protectionTimerExpiry i => exact (Move.expiry (expires_protection s i.val)).moves

/-- Every step is a chain of moves. -/
theorem moves_step {s t : State} (h : step s = .next t) : Moves s t :=
  KeptByAll.step (P := Moves s)
    ⟨fun ha hs => hs.trans (moves_aside ha), fun hrow htaken hs => hs.trans (moves_work hrow htaken),
      fun hc he hs => hs.trans (moves_event hc he), fun hs => hs.trans Move.tick.moves⟩ (.refl s) h

end Sys2Proof.Proofs.Moving
end

section
/-! PROOFS. What every step keeps (O54 to O59): each invariant is kept by every move, and so by every step. -/

namespace Sys2Proof.Proofs.Kept

open Sys2Proof.Machine Sys2Proof.Proofs.Steps Sys2Proof.Proofs.Playing Sys2Proof.Proofs.Registration
open Sys2Proof.Proofs.Draw Sys2Proof.Proofs.SupplyLists Sys2Proof.Proofs.Moving Sys2Proof.Proofs.Restart

/-! ### What the moves leave -/

theorem recordAt_reset (i : Nat) : recordAt State.reset i = none :=
  look_replicate_default _ _ _

theorem linkAt_powered (line : ResetLine) (q : List Instr) (n l : Nat) :
    linkAt { State.reset with resetLine := line, pending := q, choices := n } l = Link.idle LinkEntry.unset :=
  look_replicate_default 4 l (Link.idle LinkEntry.unset)

theorem exprAt_powered (line : ResetLine) (q : List Instr) (n e : Nat) :
    exprAt { State.reset with resetLine := line, pending := q, choices := n } e = ExprEntry.unset :=
  look_replicate_default 8 e ExprEntry.unset

theorem recordAt_of_table {s t : State} (h : t.table = s.table) (i : Nat) : recordAt t i = recordAt s i := by
  rw [recordAt, h, recordAt]

theorem rankAt_of_ranks {s t : State} (h : t.ranks = s.ranks) (r : Nat) : rankAt t r = rankAt s r := by
  rw [rankAt, h, rankAt]

theorem railAt_of_rails {s t : State} (h : t.rails = s.rails) (k : Nat) : railAt t k = railAt s k := by
  rw [railAt, h, railAt]

theorem linkAt_of_links {s t : State} (h : t.links = s.links) (l : Nat) : linkAt t l = linkAt s l := by
  rw [linkAt, h, linkAt]

/-- The state in which START begins the links' first frames: RUN, nothing drawn, the ports started. -/
def opened (s : State) : State :=
  { s with
    mode := .run, drawn := 0, tremulants := 0, runs := Vector.replicate 8 ExprRun.clear
    portA := portStarted s.portA, portB := portStarted s.portB }

/-- START begins the links and moves nothing else of the opened relay. -/
theorem onLinks_startRun (s : State) : OnLinks (opened s) (startRun s) := by
  refine OnLinks.foldl (f := startLink) (fun u l => ?_) four (opened s)
  unfold startLink
  split
  · exact (onLinks_setLink u l (by rfl) fun _ => Nat.zero_le _).trans (onLinks_beginFrame _ l)
  · exact .refl u

/-- The state in which STOP releases every claim: QUIESCING, the ports off and their recall slots idle. -/
def shut (s : State) : State :=
  idleRecall (idleRecall { s with mode := .quiescing, portA := portOff s.portA, portB := portOff s.portB } .A) .B

theorem stopRun_eq (s : State) : stopRun s = { releaseRequest (shut s) .all with tremulants := 0 } := rfl

theorem stopRun_frame (s : State) : (stopRun s).portA = (shut s).portA ∧ (stopRun s).portB = (shut s).portB
    ∧ (stopRun s).mode = .quiescing ∧ (stopRun s).links = s.links ∧ (stopRun s).faults = s.faults
    ∧ (stopRun s).dirty = s.dirty ∧ (stopRun s).discardTally = s.discardTally
    ∧ (stopRun s).expression = s.expression := by
  have h := tableFrame_releaseRequest (shut s) .all
  rw [stopRun_eq, h]
  exact ⟨rfl, rfl, rfl, rfl, rfl, rfl, rfl, rfl⟩

theorem recordAt_passMillisecond (s : State) (i : Nat) :
    recordAt (passMillisecond s) i = (recordAt s i).map tickRecord := by
  by_cases hi : i < 448
  · exact look_mapTable _ _ _ hi
  · rw [recordAt, look_beyond _ _ (Nat.le_of_not_lt hi), recordAt, look_beyond _ _ (Nat.le_of_not_lt hi)]
    rfl

theorem recordAt_passMillisecond_some {s : State} {i : Nat} {r : Record}
    (h : recordAt (passMillisecond s) i = some r) : ∃ x, recordAt s i = some x ∧ r = tickRecord x := by
  rw [recordAt_passMillisecond, Option.map_eq_some_iff] at h
  obtain ⟨x, hx, rfl⟩ := h
  exact ⟨x, hx, rfl⟩

theorem linkAt_passMillisecond (s : State) {l : Nat} (hl : l < 4) :
    linkAt (passMillisecond s) l = tickLink (linkAt s l) :=
  look_mapTable _ _ _ hl

theorem linkAt_completeQuiesce (s : State) {l : Nat} (hl : l < 4) :
    linkAt (completeQuiesce s) l = Link.idle (linkAt s l).entry :=
  look_mapTable _ _ _ hl

theorem linkAt_beyond (s : State) {l : Nat} (hl : ¬ l < 4) : linkAt s l = Link.idle LinkEntry.unset :=
  look_beyond _ _ (Nat.le_of_not_lt hl)

/-! ### The sounding table (O54) -/

theorem tableSound_of_table {s t : State} (h : t.table = s.table) (hs : TableSound s) : TableSound t := by
  unfold TableSound OneRecordPerPipe ClaimListsSound
  simp only [recordAt_of_table h]
  exact hs

theorem tableSound_of_empty {s : State} (h : ∀ i, recordAt s i = none) : TableSound s :=
  ⟨fun i _ _ _ hi => absurd ((h i).symm.trans hi) (by simp), fun i _ hi => absurd ((h i).symm.trans hi) (by simp)⟩

theorem tableSound_of_sounds {s t : State} (h : Sounds s t) : TableSound s → TableSound t :=
  h.keeps (P := TableSound) (fun q => tableSound_of_table q.table)
    (fun u c rank pipe => (plays_claimRequest u c rank pipe).sound)
    fun u pat => (plays_releaseRequest (fun _ => True) u pat).sound

theorem tableSound_passMillisecond {s : State} (hs : TableSound s) : TableSound (passMillisecond s) := by
  obtain ⟨hone, hclaims⟩ := hs
  refine ⟨fun i j r q hr hq hrank hpipe => ?_, fun i r hr => ?_⟩
  · obtain ⟨x, hx, rfl⟩ := recordAt_passMillisecond_some hr
    obtain ⟨y, hy, rfl⟩ := recordAt_passMillisecond_some hq
    exact hone i j x y hx hy hrank hpipe
  · obtain ⟨x, hx, rfl⟩ := recordAt_passMillisecond_some hr
    exact hclaims i x hx

theorem table_startRun (s : State) : (startRun s).table = s.table := by
  rw [(onLinks_startRun s).frame]
  rfl

theorem table_storeRank (s : State) (r : Nat) (e : RankEntry) : (storeRank s r e).table = s.table := by
  unfold storeRank
  split <;> rfl

theorem tableSound_of_move {s t : State} (h : Move s t) (hs : TableSound s) : TableSound t := by
  cases h with
  | aside h => exact tableSound_of_table h.table hs
  | played h => exact tableSound_of_sounds h.sounds hs
  | rank => exact tableSound_of_table (table_storeRank s _ _) hs
  | link => exact tableSound_of_table rfl hs
  | rail => exact tableSound_of_table rfl hs
  | start => exact tableSound_of_table (table_startRun s) hs
  | stop =>
    have hshut : TableSound (shut s) := tableSound_of_table rfl hs
    have hreleased := tableSound_of_sounds (Sounds.refl.release (s := shut s) .all) hshut
    exact tableSound_of_table rfl hreleased
  | restart => exact tableSound_of_empty (recordAt_restarted s)
  | reset => exact tableSound_of_empty recordAt_reset
  | expiry h => exact tableSound_of_evolves h.evolves hs
  | chamber h => exact tableSound_of_table (by rw [h.frame]) hs
  | completes => exact tableSound_of_table rfl hs
  | tick => exact tableSound_passMillisecond hs

/-- Settles O54: every move keeps the sounding table sound. -/
theorem stepKeepsTableSound : Obligations.StepKeepsTableSound :=
  fun _ _ hs h => (moves_step h).keeps tableSound_of_move hs

/-! ### The mode (O55) -/

/-- The ports are at rest and the tremulants off. -/
def Resting (s : State) : Prop :=
  PortAtRest s.portA ∧ PortAtRest s.portB ∧ s.tremulants = 0

/-- The table is empty and the links are IDLE. -/
def Quiesced (s : State) : Prop :=
  tableEmpty s = true ∧ ∀ l, l < 4 → linkAt s l = Link.idle (linkAt s l).entry

theorem modeSound_iff {s : State} :
    ModeSound s ↔ (s.mode ≠ .run → Resting s) ∧ (s.mode = .config → Quiesced s) := Iff.rfl

/-- The mode, the ports, the tremulant outputs, the table and the links stand. -/
theorem modeSound_of_same {s t : State} (hmode : t.mode = s.mode) (hA : t.portA = s.portA) (hB : t.portB = s.portB)
    (htrem : t.tremulants = s.tremulants) (htable : t.table = s.table) (hlinks : t.links = s.links)
    (hs : ModeSound s) : ModeSound t := by
  rw [modeSound_iff, hmode, Resting, Quiesced, hA, hB, htrem]
  simp only [tableEmpty, htable, linkAt_of_links hlinks]
  exact hs

theorem resting_shut (s : State) : PortAtRest (shut s).portA ∧ PortAtRest (shut s).portB :=
  ⟨⟨rfl, rfl, rfl, rfl, rfl, rfl, rfl⟩, ⟨rfl, rfl, rfl, rfl, rfl, rfl, rfl⟩⟩

theorem tickPort_of_rest {c : ConsolePort} (h : PortAtRest c) : PortAtRest (tickPort c) := by
  obtain ⟨hoff, hreceiver, hwatchdog, hreturn, hslot, hframing, hovertaken⟩ := h
  refine ⟨hoff, hreceiver, ?_, hreturn, ?_, hframing, hovertaken⟩
  · simp [tickPort, hwatchdog, tick]
  · simp [tickPort, hslot, tick, RecallSlot.idle]

/-- Where no record is in use none comes of its moving on. -/
theorem tableEmpty_of_evolves {s t : State} (h : Evolves s t) (hs : tableEmpty s = true) : tableEmpty t = true := by
  rw [tableEmpty_iff] at hs ⊢
  intro i
  cases hr : recordAt t i with
  | none => rfl
  | some r' =>
    obtain ⟨r, hr, -⟩ := h.records i r' hr
    exact absurd ((hs i).symm.trans hr) (by simp)

theorem modeSound_played {s t : State} (h : Played s t) (hs : ModeSound s) : ModeSound t := by
  obtain ⟨hrest, hquiet⟩ := modeSound_iff.mp hs
  have hmode := h.sounds.mode_eq
  refine modeSound_iff.mpr ⟨fun hrun => ?_, fun hconfig => ?_⟩
  · rw [hmode] at hrun
    obtain ⟨hA, hB, htrem⟩ := hrest hrun
    obtain ⟨hA', hB', htrem', -⟩ := h.rests hrun hA hB
    exact ⟨hA', hB', htrem'.trans htrem⟩
  · rw [hmode] at hconfig
    have hrun : s.mode ≠ .run := by rw [hconfig]; decide
    obtain ⟨hA, hB, -⟩ := hrest hrun
    obtain ⟨-, -, -, htable⟩ := h.rests hrun hA hB
    obtain ⟨hempty, hidle⟩ := hquiet hconfig
    refine ⟨by rw [tableEmpty, htable]; exact hempty, fun l hl => ?_⟩
    rw [linkAt_of_links (links_of_sounds h.sounds)]
    exact hidle l hl

theorem modeSound_expiry {s t : State} (h : Evolves s t) (hs : ModeSound s) : ModeSound t := by
  obtain ⟨hrest, hquiet⟩ := modeSound_iff.mp hs
  have hframe := h.frame
  have hmode : t.mode = s.mode := by rw [hframe]
  have hlinks : t.links = s.links := by rw [hframe]
  refine modeSound_iff.mpr ⟨fun hrun => ?_, fun hconfig => ?_⟩
  · rw [Resting, hframe]
    exact hrest (hmode ▸ hrun)
  · obtain ⟨hempty, hidle⟩ := hquiet (hmode ▸ hconfig)
    refine ⟨tableEmpty_of_evolves h hempty, fun l hl => ?_⟩
    rw [linkAt_of_links hlinks]
    exact hidle l hl

theorem modeSound_link {s : State} (l : Nat) (e : LinkEntry) (hs : ModeSound s) :
    ModeSound (setLink s l { linkAt s l with entry := e }) := by
  obtain ⟨hrest, hquiet⟩ := modeSound_iff.mp hs
  refine modeSound_iff.mpr ⟨hrest, fun hconfig => ?_⟩
  obtain ⟨hempty, hidle⟩ := hquiet hconfig
  refine ⟨hempty, fun m hm => ?_⟩
  rw [linkAt_setLink]
  split
  next h =>
    rw [hidle l (h.1 ▸ hm)]
    rfl
  · exact hidle m hm

theorem modeSound_completeQuiesce {s : State} (h : quiesceDone s = true) (hs : ModeSound s) :
    ModeSound (completeQuiesce s) := by
  simp only [quiesceDone, Bool.and_eq_true, beq_iff_eq] at h
  obtain ⟨⟨hquiescing, hempty⟩, -⟩ := h
  refine modeSound_iff.mpr ⟨fun _ => ?_, fun _ => ⟨hempty, fun l hl => ?_⟩⟩
  · exact (modeSound_iff.mp hs).1 (by rw [hquiescing]; decide)
  · rw [linkAt_completeQuiesce s hl]
    rfl

theorem modeSound_passMillisecond {s : State} (hs : ModeSound s) : ModeSound (passMillisecond s) := by
  obtain ⟨hrest, hquiet⟩ := modeSound_iff.mp hs
  refine modeSound_iff.mpr ⟨fun hrun => ?_, fun hconfig => ?_⟩
  · obtain ⟨hA, hB, htrem⟩ := hrest hrun
    exact ⟨tickPort_of_rest hA, tickPort_of_rest hB, htrem⟩
  · obtain ⟨hempty, hidle⟩ := hquiet hconfig
    rw [tableEmpty_iff] at hempty
    refine ⟨(tableEmpty_iff _).mpr fun i => ?_, fun l hl => ?_⟩
    · rw [recordAt_passMillisecond, hempty i]
      rfl
    · rw [linkAt_passMillisecond s hl, hidle l hl]
      rfl

theorem modeSound_storeRank {s : State} (r : Nat) (e : RankEntry) (hs : ModeSound s) : ModeSound (storeRank s r e) := by
  unfold storeRank
  dsimp only
  split
  next hrun => exact modeSound_iff.mpr ⟨fun h => absurd hrun h, fun h => absurd (hrun.symm.trans h) (by decide)⟩
  · exact modeSound_of_same rfl rfl rfl rfl rfl rfl hs

/-- A relay with an empty table, its ports at rest, its tremulants off and its links IDLE. -/
theorem modeSound_of_rest {s : State} (hempty : ∀ i, recordAt s i = none) (hrest : Resting s)
    (hidle : ∀ l, l < 4 → linkAt s l = Link.idle (linkAt s l).entry) : ModeSound s :=
  ⟨fun _ => hrest, fun _ => ⟨(tableEmpty_iff s).mpr hempty, hidle⟩⟩

theorem modeSound_of_move {s t : State} (h : Move s t) (hs : ModeSound s) : ModeSound t := by
  cases h with
  | aside h => exact modeSound_of_same h.mode h.portA h.portB h.tremulants h.table h.links hs
  | played h => exact modeSound_played h hs
  | rank => exact modeSound_storeRank _ _ hs
  | link => exact modeSound_link _ _ hs
  | rail => exact modeSound_of_same rfl rfl rfl rfl rfl rfl hs
  | start =>
    have hrun : (startRun s).mode = .run := by rw [(onLinks_startRun s).frame]; rfl
    exact modeSound_iff.mpr ⟨fun h => absurd hrun h, fun h => absurd (hrun.symm.trans h) (by decide)⟩
  | stop =>
    obtain ⟨hA, hB, hmode, -⟩ := stopRun_frame s
    refine modeSound_iff.mpr ⟨fun _ => ?_, fun h => absurd (hmode.symm.trans h) (by decide)⟩
    exact ⟨hA ▸ (resting_shut s).1, hB ▸ (resting_shut s).2, rfl⟩
  | restart =>
    refine modeSound_of_rest (recordAt_restarted s) ⟨?_, ?_, rfl⟩ fun l hl => ?_
    · exact ⟨rfl, rfl, rfl, rfl, rfl, rfl, rfl⟩
    · exact ⟨rfl, rfl, rfl, rfl, rfl, rfl, rfl⟩
    · rw [linkAt_restarted s hl]
      rfl
  | reset =>
    refine modeSound_of_rest recordAt_reset ⟨?_, ?_, rfl⟩ fun l hl => ?_
    · exact ⟨rfl, rfl, rfl, rfl, rfl, rfl, rfl⟩
    · exact ⟨rfl, rfl, rfl, rfl, rfl, rfl, rfl⟩
    · rw [linkAt_powered]
      rfl
  | expiry h => exact modeSound_expiry h.evolves hs
  | chamber h hawake =>
    have hframe := h.frame
    have hmode : t.mode = s.mode := by rw [hframe]
    obtain ⟨hrest, hquiet⟩ := modeSound_iff.mp hs
    refine modeSound_iff.mpr ⟨fun hrun => ?_, fun hconfig => ?_⟩
    · rw [Resting, hframe]
      exact hrest (hmode ▸ hrun)
    · obtain ⟨l, hl, hnot⟩ := hawake (hmode ▸ hconfig)
      exact absurd ((hquiet (hmode ▸ hconfig)).2 l hl) hnot
  | completes h => exact modeSound_completeQuiesce h hs
  | tick => exact modeSound_passMillisecond hs

/-- Settles O55: every move keeps what the mode rules out. -/
theorem stepKeepsModeSound : Obligations.StepKeepsModeSound :=
  fun _ _ hs h => (moves_step h).keeps modeSound_of_move hs

/-! ### The registration (O58) -/

theorem keepsReg_of_chamber {s t : State} (h : ChamberFrame s t) : KeepsReg s t := by
  rw [h]
  exact keepsReg_of_sameStops ⟨rfl, rfl, rfl, rfl, rfl, rfl, fun _ => rfl, rfl, rfl⟩

theorem keepsReg_of_move {s t : State} (h : Move s t) : KeepsReg s t := by
  have same {u : State} (h : SameStops s u) : KeepsReg s u := keepsReg_of_sameStops h
  cases h with
  | aside h => exact same (sameStops_of_aside h)
  | played h => exact h.reg
  | rank => exact keepsReg_storeRank s _ _
  | link => exact same ⟨rfl, rfl, rfl, rfl, rfl, rfl, fun _ => rfl, rfl, rfl⟩
  | rail => exact same ⟨rfl, rfl, rfl, rfl, rfl, rfl, fun _ => rfl, rfl, rfl⟩
  | start => exact keepsReg_startRun s
  | stop =>
    obtain ⟨-, -, hmode, -, -, -, -, hexpr⟩ := stopRun_frame s
    exact keepsReg_outside_run (by rw [hmode]; decide) hexpr
  | restart => exact keepsReg_outside_run Mode.noConfusion rfl
  | reset =>
    refine fun _ => ⟨fun e f he _ => ?_, Mode.noConfusion⟩
    rw [exprAt_powered] at he
    exact absurd he (by decide)
  | expiry h => exact keepsReg_of_tableFrame h.evolves.frame
  | chamber h => exact keepsReg_of_chamber h.frame
  | completes => exact keepsReg_outside_run Mode.noConfusion rfl
  | tick => exact same ⟨rfl, rfl, rfl, rfl, rfl, rfl, fun _ => rfl, rfl, rfl⟩

/-- Settles O58: every move keeps the stops, the crescendo entry and the tremulant outputs in step. -/
theorem stepKeepsTremulantsWithTheirStops : Obligations.StepKeepsTremulantsWithTheirStops :=
  fun _ _ hs h => (moves_step h).keeps (P := RegistrationSound) keepsReg_of_move hs

/-! ### The lists and the counts (O57) -/

/-- The fault set, the dirty list and the counts are sound. -/
def ListsSound (s : State) : Prop :=
  FaultsSound s ∧ DirtySound s ∧ CountsBounded s

/-- The links stand, the dirty list is sound, the levels and the tally are bounded, and of the fault set some members may be
gone. -/
theorem listsSound_of {s t : State} (hs : ListsSound s) (hfaults : t.faults.Sublist s.faults) (hlinks : t.links = s.links)
    (hdirty : DirtySound s → DirtySound t) (hlevel : (∀ p, (portAt s p).level ≤ 15) → ∀ p, (portAt t p).level ≤ 15)
    (htally : s.discardTally ≤ 255 → t.discardTally ≤ 255) : ListsSound t := by
  obtain ⟨⟨hasc, hvalid, hslots⟩, hdirtyS, hlevels, hmiss, hcount⟩ := hs
  have hlink := linkAt_of_links hlinks
  refine ⟨⟨hasc.sublist hfaults, fun n hn => hvalid n (hfaults.subset hn), fun l => ?_⟩, hdirty hdirtyS,
    hlevel hlevels, fun l => ?_, htally hcount⟩
  · rw [hlink]
    exact hslots l
  · rw [hlink]
    exact hmiss l

theorem dirtySound_sublist {s t : State} (h : t.dirty.Sublist s.dirty) (hs : DirtySound s) : DirtySound t :=
  ⟨hs.1.sublist h, h.length_le.trans hs.2⟩

theorem dirtySound_of_eq {s t : State} (h : t.dirty = s.dirty) : DirtySound s → DirtySound t :=
  dirtySound_sublist (by rw [h])

theorem listsSound_of_tableFrame {s t : State} (h : TableFrame s t) : ListsSound s → ListsSound t := by
  have hport (p : PortId) := PortLoss.portAt_of_tableFrame h p
  refine fun hs => listsSound_of hs (by rw [h]) (by rw [h]) (dirtySound_of_eq (by rw [h])) (fun hl p => ?_)
    (by rw [h]; exact id)
  rw [hport]
  exact hl p

theorem listsSound_of_sounds {s t : State} (h : Sounds s t) : ListsSound s → ListsSound t :=
  h.keeps (P := ListsSound)
    (fun q hs => listsSound_of hs (by rw [q.faults]) q.links q.dirty q.level (by rw [q.tally]; exact id))
    (fun u c rank pipe => listsSound_of_tableFrame (tableFrame_claimRequest u c rank pipe))
    fun u pat => listsSound_of_tableFrame (tableFrame_releaseRequest u pat)

theorem listsSound_of_onLinks {s t : State} (h : OnLinks s t) (hs : ListsSound s) : ListsSound t := by
  obtain ⟨hfaults, hdirty, hlevels, hmiss, hcount⟩ := hs
  have hframe := h.frame
  have hport (p : PortId) : portAt t p = portAt s p := by rw [hframe]; cases p <;> rfl
  refine ⟨h.faults hfaults, dirtySound_of_eq (by rw [hframe]) hdirty, fun p => ?_, h.miss hmiss, by rw [hframe]; exact hcount⟩
  rw [hport]
  exact hlevels p

/-- The links after a change that keeps or drops each one's entry and miss count. -/
theorem listsSound_of_links {s t : State} (hs : ListsSound s) (hfaults : t.faults = s.faults) (hdirty : t.dirty = s.dirty)
    (hport : ∀ p, (portAt t p).level = (portAt s p).level) (htally : t.discardTally = s.discardTally)
    (hlinks : ∀ l, (linkAt t l).entry.slots ≤ max (linkAt s l).entry.slots 48 ∧ (linkAt t l).miss ≤ (linkAt s l).miss) :
    ListsSound t := by
  obtain ⟨⟨hasc, hvalid, hslots⟩, hdirtyS, hlevels, hmiss, hcount⟩ := hs
  refine ⟨⟨hfaults ▸ hasc, hfaults ▸ hvalid, fun l => ?_⟩, dirtySound_of_eq hdirty hdirtyS, fun p => ?_, fun l => ?_,
    htally ▸ hcount⟩
  · exact (hlinks l).1.trans (max_le (hslots l) (Nat.le_refl _))
  · rw [hport]
    exact hlevels p
  · exact (hlinks l).2.trans (hmiss l)

/-- No fault, nothing dirty, and every count at 0. -/
theorem listsSound_of_cleared {t : State} (hfaults : t.faults = []) (hdirty : t.dirty = [])
    (hlevel : ∀ p, (portAt t p).level = 0) (hlinks : ∀ l, (linkAt t l).entry.slots ≤ 48 ∧ (linkAt t l).miss = 0)
    (htally : t.discardTally = 0) : ListsSound t := by
  refine ⟨⟨by simp [hfaults], by simp [hfaults], fun l => (hlinks l).1⟩, by simp [DirtySound, hdirty], fun p => ?_,
    fun l => ?_, by simp [htally]⟩
  · simp [hlevel]
  · simp [(hlinks l).2]

theorem listsSound_storeRank {s : State} (r : Nat) (e : RankEntry) (hs : ListsSound s) : ListsSound (storeRank s r e) := by
  unfold storeRank
  split
  · exact listsSound_of hs (List.Sublist.refl _) rfl id (fun h p => by cases p; exact h .A; exact h .B) id
  · exact listsSound_of hs (List.Sublist.refl _) rfl id (fun h p => by cases p; exact h .A; exact h .B) id

theorem level_portStarted (c : ConsolePort) : (portStarted c).level = c.level := by
  unfold portStarted
  split <;> rfl

theorem slots_restarted {s : State} (hs : ListsSound s) (l : Nat) :
    (linkAt (restarted s) l).entry.slots ≤ 48 ∧ (linkAt (restarted s) l).miss = 0 := by
  by_cases hl : l < 4
  · rw [linkAt_restarted s hl]
    exact ⟨hs.1.2.2 l, rfl⟩
  · rw [linkAt_beyond _ hl]
    exact ⟨by decide, rfl⟩

theorem listsSound_of_move {s t : State} (h : Move s t) (hs : ListsSound s) : ListsSound t := by
  cases h with
  | aside h =>
    refine listsSound_of hs h.faults h.links (dirtySound_sublist h.dirty) (fun hl p => ?_) h.tally
    rw [h.portAt_eq]
    exact hl p
  | played h => exact listsSound_of_sounds h.sounds hs
  | rank => exact listsSound_storeRank _ _ hs
  | @link l e _ hslots =>
    refine listsSound_of_links hs rfl rfl (fun p => by cases p <;> rfl) rfl fun m => ?_
    rw [linkAt_setLink]
    split
    next h => exact ⟨le_max_of_le_right hslots, h.1 ▸ Nat.le_refl _⟩
    · exact ⟨le_max_left _ _, Nat.le_refl _⟩
  | rail => exact listsSound_of hs (List.Sublist.refl _) rfl id (fun h p => by cases p; exact h .A; exact h .B) id
  | start =>
    refine listsSound_of_onLinks (onLinks_startRun s) (listsSound_of hs (List.Sublist.refl _) rfl id (fun h p => ?_) id)
    cases p
    · exact (level_portStarted s.portA).trans_le (h .A)
    · exact (level_portStarted s.portB).trans_le (h .B)
  | stop =>
    obtain ⟨hA, hB, -, hlinks, hfaults, hdirty, htally, -⟩ := stopRun_frame s
    refine listsSound_of hs (by rw [hfaults]) hlinks (dirtySound_of_eq hdirty) (fun h p => ?_) (by rw [htally]; exact id)
    cases p
    · exact (congrArg ConsolePort.level hA).trans_le (h .A)
    · exact (congrArg ConsolePort.level hB).trans_le (h .B)
  | restart => exact listsSound_of_cleared rfl rfl (fun p => by cases p <;> rfl) (slots_restarted hs) rfl
  | reset =>
    refine listsSound_of_cleared rfl rfl (fun p => by cases p <;> rfl) (fun l => ?_) rfl
    rw [linkAt_powered]
    exact ⟨by decide, rfl⟩
  | expiry h => exact listsSound_of_tableFrame h.evolves.frame hs
  | chamber h => exact listsSound_of_onLinks h hs
  | completes =>
    refine listsSound_of_links hs rfl rfl (fun p => by cases p <;> rfl) rfl fun l => ?_
    by_cases hl : l < 4
    · rw [linkAt_completeQuiesce s hl]
      exact ⟨le_max_left _ _, Nat.zero_le _⟩
    · rw [linkAt_beyond _ hl, linkAt_beyond _ hl]
      exact ⟨le_max_left _ _, Nat.le_refl _⟩
  | tick =>
    refine listsSound_of_links hs rfl rfl (fun p => by cases p <;> rfl) rfl fun l => ?_
    by_cases hl : l < 4
    · rw [linkAt_passMillisecond s hl]
      exact ⟨le_max_left _ _, Nat.le_refl _⟩
    · rw [linkAt_beyond _ hl, linkAt_beyond _ hl]
      exact ⟨le_max_left _ _, Nat.le_refl _⟩

/-- Settles O57: every move keeps the lists and the counts in range. -/
theorem stepKeepsListsAndCountsInRange : Obligations.StepKeepsListsAndCountsInRange :=
  fun _ _ hfaults hdirty hcounts h =>
    (moves_step h).keeps (P := ListsSound) listsSound_of_move ⟨hfaults, hdirty, hcounts⟩

end Sys2Proof.Proofs.Kept
end

section
/-! PROOFS. The draws, the lists and the charges over a step (O56, O59): what a rank write, a rail write, the mode changes
and a millisecond leave of them, where the mode, the draws and the lists are sound. -/

namespace Sys2Proof.Proofs.KeptSupply

open Sys2Proof.Machine Sys2Proof.Proofs.Steps Sys2Proof.Proofs.Playing Sys2Proof.Proofs.Registration
open Sys2Proof.Proofs.Draw Sys2Proof.Proofs.SupplyLists Sys2Proof.Proofs.Moving Sys2Proof.Proofs.Restart
open Sys2Proof.Proofs.Kept

/-! ### An empty table -/

theorem recordAt_of_config {s : State} (hs : ModeSound s) (hconfig : s.mode = .config) (i : Nat) :
    recordAt s i = none :=
  (tableEmpty_iff s).mp (hs.2 hconfig).1 i

theorem chargeSum_of_empty {s : State} (h : ∀ i, recordAt s i = none) (k : Nat) : chargeSum s k = 0 := by
  refine List.sum_eq_zero fun n hn => ?_
  obtain ⟨i, -, rfl⟩ := List.mem_map.mp hn
  exact chargeIn_none (h i) k

theorem drawSound_of_empty {s : State} (h : ∀ i, recordAt s i = none) (hdraw : ∀ k, k < 4 → (railAt s k).draw = 0)
    (hrail : ∀ r, (rankAt s r).rail < 4) : DrawSound s :=
  ⟨fun k hk => by rw [hdraw k hk, chargeSum_of_empty h], hrail⟩

theorem supplySound_of_empty {s : State} (h : ∀ i, recordAt s i = none)
    (hrail : ∀ k, k < 4 → (railAt s k).deferred = [] ∧ (railAt s k).draw = 0)
    (hholds : ∀ q, usesHold (rankAt s q).kind = true → holdCharge (rankAt s q) ≤ (rankAt s q).pull) :
    SupplySound s := by
  refine ⟨fun k hk => ?_, fun i r hr => ?_, fun k hk => ?_, hholds, fun i r hr => ?_⟩
  · rw [(hrail k hk).1]
    refine ⟨List.nodup_nil, fun i => iff_of_false List.not_mem_nil ?_⟩
    rintro ⟨r, hr, -⟩
    exact absurd ((h i).symm.trans hr) (by simp)
  · exact absurd ((h i).symm.trans hr) (by simp)
  · rw [(hrail k hk).2]
    exact Nat.zero_le _
  · exact absurd ((h i).symm.trans hr) (by simp)

/-- In CONFIG, with an empty table, no list holds an index and no draw is left. -/
theorem rail_of_config {s : State} (hmode : ModeSound s) (hdraw : DrawSound s) (hconfig : s.mode = .config) {k : Nat}
    (hk : k < 4) : (railAt s k).draw = 0 := by
  rw [hdraw.1 k hk, chargeSum_of_empty (recordAt_of_config hmode hconfig)]

theorem deferred_of_config {s : State} (hmode : ModeSound s) (hs : SupplySound s) (hconfig : s.mode = .config) {k : Nat}
    (hk : k < 4) : (railAt s k).deferred = [] := by
  refine List.eq_nil_iff_forall_not_mem.mpr fun i hi => ?_
  obtain ⟨r, hr, -⟩ := ((hs.1 k hk).2 i).mp hi
  exact absurd ((recordAt_of_config hmode hconfig i).symm.trans hr) (by simp)

/-! ### Rank writes (R4, R5) -/

/-- A rank write that is stored is of a rank with no record. -/
theorem no_record_of_rankFault {s : State} {r : Nat} {e : RankEntry} (hs : ModeSound s)
    (hmode : s.mode = .config ∨ s.mode = .run) (hfault : rankFault s r e = none) {i : Nat} {x : Record}
    (hx : recordAt s i = some x) : x.rank ≠ r := by
  rcases hmode with hconfig | hrun
  · exact absurd ((recordAt_of_config hs hconfig i).symm.trans hx) (by simp)
  · have hfree : rankInUse s r e = false := by
      unfold rankFault at hfault
      simp only [hrun, true_and] at hfault
      split at hfault
      · exact absurd hfault (by simp)
      split at hfault
      · exact absurd hfault (by simp)
      split at hfault
      · exact absurd hfault (by simp)
      split at hfault
      · exact absurd hfault (by simp)
      split at hfault
      · exact absurd hfault (by simp)
      split at hfault
      · exact absurd hfault (by simp)
      next hnot => exact Bool.of_not_eq_true hnot
    rintro rfl
    simp only [rankInUse, Bool.or_eq_false_iff, List.any_eq_false] at hfree
    obtain ⟨hrecords, -⟩ := hfree
    have hmem : some x ∈ s.table.toList := (mem_toList_iff_look s.table (some x) none).mpr ⟨i, recordAt_lt hx, hx⟩
    exact absurd (hrecords _ hmem) (by simp)

/-- A rank write that is stored holds at no more than it pulls (check 4 of R4). -/
theorem holdCharge_le_of_rankFault {s : State} {r : Nat} {e : RankEntry} (hfault : rankFault s r e = none)
    (hpull : usesHold e.kind = true → 1 ≤ e.pull) (hkind : usesHold e.kind = true) : holdCharge e ≤ e.pull := by
  have hle : ¬ (usesHold e.kind = true ∧ e.pull < e.hold) := by
    intro h
    unfold rankFault at hfault
    split at hfault
    · exact absurd hfault (by simp)
    split at hfault
    · exact absurd hfault (by simp)
    exact absurd hfault (by simp)
  have := hpull hkind
  unfold holdCharge
  split
  · omega
  · exact Nat.le_of_not_lt fun h => hle ⟨hkind, h⟩

theorem storeRank_frame (s : State) (r : Nat) (e : RankEntry) :
    (storeRank s r e).ranks = put s.ranks r e ∧ (storeRank s r e).table = s.table
      ∧ (storeRank s r e).rails = s.rails := by
  unfold storeRank
  split <;> exact ⟨rfl, rfl, rfl⟩

theorem rankAt_storeRank (s : State) (r q : Nat) (e : RankEntry) :
    rankAt (storeRank s r e) q = if r = q ∧ r < 64 then e else rankAt s q := by
  rw [rankAt, (storeRank_frame s r e).1, look_put]
  rfl

section StoreRank

variable {s : State} {r : Nat} {e : RankEntry} (hfree : ∀ i x, recordAt s i = some x → x.rank ≠ r)
include hfree

/-- A record's rank is not the written one. -/
theorem rankAt_storeRank_of_record {i : Nat} {x : Record} (hx : recordAt s i = some x) :
    rankAt (storeRank s r e) x.rank = rankAt s x.rank := by
  rw [rankAt_storeRank, if_neg fun h => hfree i x hx h.1.symm]

theorem drawSound_storeRank (hrail : e.rail < 4) (hs : DrawSound s) : DrawSound (storeRank s r e) := by
  obtain ⟨hdraw, hrails⟩ := hs
  obtain ⟨-, htable, hrailsEq⟩ := storeRank_frame s r e
  refine ⟨fun k hk => ?_, fun q => ?_⟩
  · rw [railAt_of_rails hrailsEq, hdraw k hk, chargeSum_eq, chargeSum_eq]
    refine congrArg List.sum (List.map_congr_left fun i _ => ?_)
    cases hx : recordAt s i with
    | none => rw [chargeIn_none hx, chargeIn_none ((recordAt_of_table htable i).trans hx)]
    | some x =>
      rw [chargeIn_some hx, chargeIn_some ((recordAt_of_table htable i).trans hx), railOf, railOf,
        rankAt_storeRank_of_record hfree hx]
  · rw [rankAt_storeRank]
    split
    · exact hrail
    · exact hrails q

theorem supplySound_storeRank (hhold : usesHold e.kind = true → holdCharge e ≤ e.pull) (hs : SupplySound s) :
    SupplySound (storeRank s r e) := by
  obtain ⟨hdeferred, hpaused, hwithin, hholds, hcharges⟩ := hs
  obtain ⟨-, htable, hrailsEq⟩ := storeRank_frame s r e
  have hrec := recordAt_of_table htable
  have hrail := railAt_of_rails hrailsEq
  refine ⟨fun k hk => ?_, fun i x hx => ?_, fun k hk => ?_, fun q hq => ?_, fun i x hx => ?_⟩
  · rw [hrail]
    refine ⟨(hdeferred k hk).1, fun i => ((hdeferred k hk).2 i).trans ?_⟩
    refine exists_congr fun x => ?_
    rw [hrec]
    refine and_congr_right fun hx => ?_
    rw [railOf, railOf, rankAt_storeRank_of_record hfree hx]
  · exact hpaused i x (hrec i ▸ hx)
  · rw [hrail]
    exact hwithin k hk
  · rw [rankAt_storeRank] at hq ⊢
    split at hq
    next h => rw [if_pos h]; exact hhold hq
    next h => rw [if_neg h]; exact hholds q hq
  · rw [hrec] at hx
    rw [rankAt_storeRank_of_record hfree hx]
    exact hcharges i x hx

end StoreRank

/-! ### A millisecond -/

theorem drawSound_passMillisecond {s : State} (hs : DrawSound s) : DrawSound (passMillisecond s) := by
  obtain ⟨hdraw, hrails⟩ := hs
  refine ⟨fun k hk => ?_, hrails⟩
  refine (hdraw k hk).trans ?_
  rw [chargeSum_eq, chargeSum_eq]
  refine congrArg List.sum (List.map_congr_left fun i _ => ?_)
  have hrec := recordAt_passMillisecond s i
  cases hx : recordAt s i with
  | none =>
    rw [hx] at hrec
    rw [chargeIn_none hx, chargeIn_none hrec]
  | some x =>
    rw [hx] at hrec
    rw [chargeIn_some hx, chargeIn_some hrec]
    rfl

theorem supplySound_passMillisecond {s : State} (hs : SupplySound s) : SupplySound (passMillisecond s) := by
  obtain ⟨hdeferred, hpaused, hwithin, hholds, hcharges⟩ := hs
  refine ⟨fun k hk => ⟨(hdeferred k hk).1, fun i => ((hdeferred k hk).2 i).trans ?_⟩, fun i r hr => ?_, hwithin, hholds,
    fun i r hr => ?_⟩
  · constructor
    · rintro ⟨x, hx, hw, hrail⟩
      exact ⟨tickRecord x, by rw [recordAt_passMillisecond, hx]; rfl, hw, hrail⟩
    · rintro ⟨r, hr, hw, hrail⟩
      obtain ⟨x, hx, rfl⟩ := recordAt_passMillisecond_some hr
      exact ⟨x, hx, hw, hrail⟩
  · obtain ⟨x, hx, rfl⟩ := recordAt_passMillisecond_some hr
    exact hpaused i x hx
  · obtain ⟨x, hx, rfl⟩ := recordAt_passMillisecond_some hr
    exact hcharges i x hx

/-! ### The draws (O56) -/

theorem rankAt_powered (line : ResetLine) (q : List Instr) (n r : Nat) :
    rankAt { State.reset with resetLine := line, pending := q, choices := n } r = RankEntry.unset :=
  look_replicate_default 64 r RankEntry.unset

theorem railAt_powered (line : ResetLine) (q : List Instr) (n k : Nat) :
    railAt { State.reset with resetLine := line, pending := q, choices := n } k = Rail.unset :=
  look_replicate_default 4 k Rail.unset

/-- The ranks, the table and the rails stand. -/
structure SameSupply (s t : State) : Prop where
  ranks : t.ranks = s.ranks
  table : t.table = s.table
  rails : t.rails = s.rails

theorem SameSupply.draw {s t : State} (h : SameSupply s t) : KeepsDraw s t :=
  keepsDraw_of_same h.ranks h.table fun k _ => by rw [railAt_of_rails h.rails]

theorem SameSupply.supply {s t : State} (h : SameSupply s t) : KeepsSupply s t :=
  keepsSupply_of_same h.ranks h.table fun k _ => by rw [railAt_of_rails h.rails]; exact ⟨rfl, rfl, rfl⟩

theorem sameSupply_startRun (s : State) : SameSupply s (startRun s) := by
  rw [(onLinks_startRun s).frame]
  exact ⟨rfl, rfl, rfl⟩

theorem sameSupply_chamber {s t : State} (h : ChamberFrame s t) : SameSupply s t := by
  rw [h]
  exact ⟨rfl, rfl, rfl⟩

theorem sounds_stopRun (s : State) :
    ∃ u, SameSupply s (shut s) ∧ Sounds (shut s) u ∧ SameSupply u (stopRun s) :=
  ⟨releaseRequest (shut s) .all, ⟨rfl, rfl, rfl⟩, Sounds.refl.release .all, ⟨rfl, rfl, rfl⟩⟩

theorem keepsDraw_of_move {s t : State} (hmode : ModeSound s) (h : Move s t) : KeepsDraw s t := by
  cases h with
  | aside h => exact SameSupply.draw ⟨h.ranks, h.table, h.rails⟩
  | played h => exact keepsDraw_of_sounds h.sounds
  | rank hm hrail _ hfault =>
    exact drawSound_storeRank (fun _ _ hx => no_record_of_rankFault hmode hm hfault hx) hrail
  | link => exact SameSupply.draw ⟨rfl, rfl, rfl⟩
  | rail k e => exact keepsDraw_setRail
  | start => exact (sameSupply_startRun s).draw
  | stop =>
    obtain ⟨u, hshut, hsounds, hstop⟩ := sounds_stopRun s
    exact (hshut.draw.trans (keepsDraw_of_sounds hsounds)).trans hstop.draw
  | restart =>
    refine fun hs => drawSound_of_empty (recordAt_restarted s) (fun k hk => ?_) hs.2
    rw [railAt_restarted s hk]
    rfl
  | reset =>
    refine fun _ => drawSound_of_empty recordAt_reset (fun k _ => ?_) fun r => ?_
    · rw [railAt_powered]
      rfl
    · rw [rankAt_powered]
      decide
  | expiry h => exact h.draw
  | chamber h => exact (sameSupply_chamber h.frame).draw
  | completes => exact SameSupply.draw ⟨rfl, rfl, rfl⟩
  | tick => exact drawSound_passMillisecond

/-- The mode and the draws are sound. -/
def PoweredSound (s : State) : Prop :=
  ModeSound s ∧ DrawSound s

theorem poweredSound_of_move {s t : State} (h : Move s t) (hs : PoweredSound s) : PoweredSound t :=
  ⟨modeSound_of_move h hs.1, keepsDraw_of_move hs.1 h hs.2⟩

/-- Settles O56: every move keeps the draws the sums of the charges, where the mode is sound. -/
theorem stepKeepsDrawTheSumOfCharges : Obligations.StepKeepsDrawTheSumOfCharges :=
  fun _ _ hmode hdraw h => ((moves_step h).keeps poweredSound_of_move ⟨hmode, hdraw⟩).2

/-! ### The lists, the pauses and the charges (O59) -/

theorem keepsSupply_of_move {s t : State} (hs : PoweredSound s) (h : Move s t) : KeepsSupply s t := by
  obtain ⟨hmode, hdraw⟩ := hs
  cases h with
  | aside h => exact SameSupply.supply ⟨h.ranks, h.table, h.rails⟩
  | played h => exact keepsSupply_of_sounds h.sounds
  | rank hm _ hpull hfault =>
    exact supplySound_storeRank (fun _ _ hx => no_record_of_rankFault hmode hm hfault hx)
      (holdCharge_le_of_rankFault hfault hpull)
  | link => exact SameSupply.supply ⟨rfl, rfl, rfl⟩
  | rail k e hconfig =>
    intro hs
    refine supplySound_of_empty (recordAt_of_config hmode hconfig) (fun m hm => ?_) hs.2.2.2.1
    rw [railAt_setRail]
    split
    next h =>
      rw [h.1]
      exact ⟨deferred_of_config hmode hs hconfig hm, rail_of_config hmode hdraw hconfig hm⟩
    · exact ⟨deferred_of_config hmode hs hconfig hm, rail_of_config hmode hdraw hconfig hm⟩
  | start => exact (sameSupply_startRun s).supply
  | stop =>
    obtain ⟨u, hshut, hsounds, hstop⟩ := sounds_stopRun s
    exact (hshut.supply.trans (keepsSupply_of_sounds hsounds)).trans hstop.supply
  | restart =>
    refine fun hs => supplySound_of_empty (recordAt_restarted s) (fun k hk => ?_) hs.2.2.2.1
    rw [railAt_restarted s hk]
    exact ⟨rfl, rfl⟩
  | reset =>
    refine fun _ => supplySound_of_empty recordAt_reset (fun k _ => ?_) fun q hq => ?_
    · rw [railAt_powered]
      exact ⟨rfl, rfl⟩
    · rw [rankAt_powered] at hq
      exact absurd hq (by decide)
  | expiry h => exact h.supply hdraw.2
  | chamber h => exact (sameSupply_chamber h.frame).supply
  | completes => exact SameSupply.supply ⟨rfl, rfl, rfl⟩
  | tick => exact supplySound_passMillisecond

/-- Settles O59: every move keeps the lists, the pauses and the charges, where the mode and the draws are sound. -/
theorem stepKeepsDeferredListsAndCapacity : Obligations.StepKeepsDeferredListsAndCapacity :=
  fun _ _ hmode hdraw hs h =>
    ((moves_step h).keeps (P := fun u => PoweredSound u ∧ SupplySound u)
      (fun m hu => ⟨poweredSound_of_move m hu.1, keepsSupply_of_move hu.1 m hu.2⟩) ⟨⟨hmode, hdraw⟩, hs⟩).2

/-! ### The reset state (O60) -/

/-- Settles O60: the reset state has an empty table, ports at rest, IDLE links and unset tables. -/
theorem resetHasTheInvariants : Obligations.ResetHasTheInvariants := by
  have hrank (r : Nat) : rankAt State.reset r = RankEntry.unset := look_replicate_default 64 r RankEntry.unset
  have hrail (k : Nat) : railAt State.reset k = Rail.unset := look_replicate_default 4 k Rail.unset
  have hlink (l : Nat) : linkAt State.reset l = Link.idle LinkEntry.unset :=
    look_replicate_default 4 l (Link.idle LinkEntry.unset)
  have hexpr (e : Nat) : exprAt State.reset e = ExprEntry.unset := look_replicate_default 8 e ExprEntry.unset
  have hlists : ListsSound State.reset :=
    listsSound_of_cleared rfl rfl (fun p => by cases p <;> rfl) (fun l => by rw [hlink]; exact ⟨by decide, rfl⟩) rfl
  obtain ⟨hfaults, hdirty, hcounts⟩ := hlists
  refine ⟨tableSound_of_empty recordAt_reset, ?_, ?_, hfaults, hdirty, hcounts, ?_, ?_, rfl⟩
  · refine modeSound_of_rest recordAt_reset ⟨?_, ?_, rfl⟩ fun l _ => by rw [hlink]; rfl
    · exact ⟨rfl, rfl, rfl, rfl, rfl, rfl, rfl⟩
    · exact ⟨rfl, rfl, rfl, rfl, rfl, rfl, rfl⟩
  · exact drawSound_of_empty recordAt_reset (fun k _ => by rw [hrail]; rfl) fun r => by rw [hrank]; decide
  · refine ⟨fun e f he _ => ?_, Mode.noConfusion⟩
    rw [hexpr] at he
    exact absurd he (by decide)
  · refine supplySound_of_empty recordAt_reset (fun k _ => by rw [hrail]; exact ⟨rfl, rfl⟩) fun q hq => ?_
    rw [hrank] at hq
    exact absurd hq (by decide)

end Sys2Proof.Proofs.KeptSupply
end

section
/-! PROOFS. The step itself (O1, O2), the transactions that are no good request (O5), the frame of the record timers (O44)
and the power-on reset with what an asserted line lets happen (O19). -/

namespace Sys2Proof.Proofs.Steps

open Sys2Proof.Machine Sys2Proof.Proofs.ServicePort Sys2Proof.Proofs.Restart Sys2Proof.Proofs.Kept

/-! ### The step (O1, O2) -/

/-- Settles O1: a step looks at the queue's front first. -/
theorem stepRunsFrontOfQueue : Obligations.StepRunsFrontOfQueue :=
  fun _ _ _ => rfl

theorem tick_eq_map (t : Option Nat) : tick t = t.map (· - 1) := by
  cases t <;> rfl

theorem step_idle {s : State} (h : s.pending = []) : step s = idleStep s := by
  rw [step, h]

theorem portAt_passMillisecond (s : State) (p : PortId) : portAt (passMillisecond s) p = tickPort (portAt s p) := by
  cases p <;> rfl

/-- Of two or more due events an idle step takes one (log 3). -/
theorem idleStep_of_many {s : State} (h : 2 ≤ (dueEvents s).length) :
    ∃ c, c ∈ dueEvents s ∧ idleStep s = exec c { s with choices := s.choices + 1 } := by
  unfold idleStep
  match hdue : dueEvents s, h with
  | c :: d :: rest, _ =>
    let due := c :: d :: rest
    have hlt : Config.freeChoice s.choices % due.length < due.length := Nat.mod_lt _ (by simp [due])
    refine ⟨due.getD (Config.freeChoice s.choices % due.length) c, ?_, rfl⟩
    rw [List.getD_eq_getElem _ _ hlt]
    exact List.getElem_mem hlt

/-- Settles O2: the three ways of an idle step, by the due events. -/
theorem idleStepPassesOneMillisecond : Obligations.IdleStepPassesOneMillisecond := by
  refine ⟨fun s hq hdue => ⟨passMillisecond s, ?_, fun i => ?_, fun p => ?_, fun l hl => ?_, rfl⟩, fun s c hq hdue => ?_,
    fun s hq hdue => ?_⟩
  · rw [step_idle hq, idleStep, hdue]
  · rw [recordAt_passMillisecond]
    refine congrArg (fun f => Option.map f (recordAt s i)) (funext fun r => ?_)
    simp only [tickRecord, tick_eq_map]
  · rw [portAt_passMillisecond]
    simp only [tickPort, tick_eq_map]
  · rw [linkAt_passMillisecond s hl]
    simp only [tickLink, tick_eq_map]
  · rw [step_idle hq, idleStep, hdue]
  · rw [step_idle hq]
    exact idleStep_of_many hdue

/-! ### Transactions that are no good request (O5) -/

theorem dataOutByte_of_empty {s : State} (h : s.dataOut = []) (i : Nat) : dataOutByte s i = 0xFF#8 := by
  simp [dataOutByte, h, Config.idleByte]

theorem exec_requestCheckFailed_free (bytes : List Byte) {s : State} (hfree : PortFree s) :
    exec (.requestCheckFailed bytes) s = .next (answered s .check []) := by
  rw [exec_requestCheckFailed, arrives_free _ hfree]
  rfl

theorem exec_unknownRequest_free (code : Byte) (params : List Byte) {s : State} (hfree : PortFree s) :
    exec (.unknownRequest code params) s = .next (answered s (unknownStatus s.mode code) []) := by
  rw [exec_unknownRequest, arrives_free _ hfree]
  rfl

theorem byte_eq_iff_toNat {b c : Byte} : b = c ↔ b.toNat = c.toNat := BitVec.toNat_inj.symm

theorem unknownStatus_of_plain {m : Mode} {code : Byte} (h : code.toNat ∉ 0x11 :: 0x50 :: 0x81 :: plainCodes) :
    unknownStatus m code = .unknown := by
  simp only [List.mem_cons, not_or] at h
  obtain ⟨htable, hitem, hform, -⟩ := h
  rw [unknownStatus, if_neg, if_neg]
  · exact fun hc => hform (byte_eq_iff_toNat.mp hc)
  · exact not_or.mpr ⟨fun hc => htable (byte_eq_iff_toNat.mp hc), fun hc => hitem (byte_eq_iff_toNat.mp hc)⟩

theorem unknownStatus_of_table {m : Mode} {code : Byte} (h : code.toNat = 0x11 ∨ code.toNat = 0x50) :
    unknownStatus m code = .range :=
  if_pos (h.imp byte_eq_iff_toNat.mpr byte_eq_iff_toNat.mpr)

theorem unknownStatus_of_form {m : Mode} {code : Byte} (h : code.toNat = 0x81) :
    unknownStatus m code = if m = .quiescing then .mode else .range := by
  obtain rfl : code = 0x81#8 := byte_eq_iff_toNat.mpr h
  cases m <;> rfl

/-- Settles O5: each arm by the port's own answer, and the data line by its emptiness. -/
theorem transactionsThatAreNoGoodRequest : Obligations.TransactionsThatAreNoGoodRequest := by
  refine ⟨fun _ _ => rfl, fun bytes s hfree => exec_requestCheckFailed_free bytes hfree, fun code params s hfree => ?_,
    fun s st payload i => ⟨dataOutByte_of_empty rfl i, dataOutByte_of_empty rfl i⟩⟩
  rw [exec_unknownRequest_free code params hfree]
  refine ⟨fun h => ?_, fun h => ?_, fun h => ?_⟩
  · rw [unknownStatus_of_plain h]
  · rw [unknownStatus_of_table h]
  · rw [unknownStatus_of_form h]

/-! ### The record timers (O44) -/

section FreeIndex

variable {s : State} {i : Nat} (h : recordAt s i = none)
include h

theorem waitExpiry_free : waitExpiry s i = s := by simp only [waitExpiry, h]
theorem pullExpiry_free : pullExpiry s i = s := by simp only [pullExpiry, h]
theorem settleExpiry_free : settleExpiry s i = s := by simp only [settleExpiry, h]
theorem strikeExpiry_free : strikeExpiry s i = s := by simp only [strikeExpiry, h]
theorem cycleExpiry_free : cycleExpiry s i = s := by simp only [cycleExpiry, h]
theorem protectionExpiry_free : protectionExpiry s i = s := by simp only [protectionExpiry, h]

end FreeIndex

/-- Outside QUIESCING no quiesce completes. -/
theorem settleMode_of_not_quiescing {s : State} (h : s.mode ≠ .quiescing) : settleMode s = s := by
  rw [settleMode, if_neg]
  simp [quiesceDone, h]

theorem exec_settleTimerExpiry {s : State} (h : s.mode ≠ .quiescing) (i : Fin 448) :
    exec (.settleTimerExpiry i) s = .next (settleExpiry s i.val) :=
  congrArg Host.Outcome.next (settleMode_of_not_quiescing (by rwa [(evolves_settleExpiry s i.val).mode_eq]))

theorem exec_strikeTimerExpiry {s : State} (h : s.mode ≠ .quiescing) (i : Fin 448) :
    exec (.strikeTimerExpiry i) s = .next (strikeExpiry s i.val) :=
  congrArg Host.Outcome.next (settleMode_of_not_quiescing (by rwa [(evolves_strikeExpiry s i.val).mode_eq]))

/-- The six timers of a free index do nothing outside QUIESCING (log 4). -/
theorem exec_recordTimer_free {s : State} {i : Fin 448} (h : recordAt s i = none) (hmode : s.mode ≠ .quiescing) :
    exec (.waitTimerExpiry i) s = .next s ∧ exec (.pullTimerExpiry i) s = .next s
      ∧ exec (.settleTimerExpiry i) s = .next s ∧ exec (.strikeTimerExpiry i) s = .next s
      ∧ exec (.cycleTimerExpiry i) s = .next s ∧ exec (.protectionTimerExpiry i) s = .next s := by
  rw [exec_settleTimerExpiry hmode, exec_strikeTimerExpiry hmode, settleExpiry_free h, strikeExpiry_free h]
  exact ⟨congrArg _ (waitExpiry_free h), congrArg _ (pullExpiry_free h), rfl, rfl, congrArg _ (cycleExpiry_free h),
    congrArg _ (protectionExpiry_free h)⟩

/-- Settles O44: every expiry evolves the table within its frame. -/
theorem recordTimersKeepTheirFrame : Obligations.RecordTimersKeepTheirFrame := by
  refine ⟨fun s t i h => ?_, fun s i h hmode => exec_recordTimer_free h hmode⟩
  rcases h with h | h | h | h | ⟨hmode, h | h⟩
  · obtain rfl := Host.Outcome.next.inj h
    exact (evolves_waitExpiry s i.val).frame
  · obtain rfl := Host.Outcome.next.inj h
    exact (evolves_pullExpiry s i.val).frame
  · obtain rfl := Host.Outcome.next.inj h
    exact (evolves_cycleExpiry s i.val).frame
  · obtain rfl := Host.Outcome.next.inj h
    exact (evolves_protectionExpiry s i.val).frame
  · obtain rfl := Host.Outcome.next.inj ((exec_settleTimerExpiry hmode i).symm.trans h)
    exact (evolves_settleExpiry s i.val).frame
  · obtain rfl := Host.Outcome.next.inj ((exec_strikeTimerExpiry hmode i).symm.trans h)
    exact (evolves_strikeExpiry s i.val).frame

/-! ### The power-on reset (O19) -/

/-- The relay as the reset line leaves it, with the queue and the model's count it had (R168; log 16). -/
def powered (s : State) (line : ResetLine) : State :=
  { State.reset with resetLine := line, pending := s.pending, choices := s.choices }

theorem exec_powerOnReset (s : State) (line : ResetLine) : exec (.powerOnReset line) s = .next (powered s line) := rfl

theorem bit_lt (c : Cause) : Cause.bit c < 12 := by
  cases c <;> decide

theorem crescendoAt_powered (s : State) (line : ResetLine) (n : Nat) : crescendoAt (powered s line) n = 0 := by
  unfold crescendoAt
  split
  · rfl
  · exact look_replicate_default 15 (n - 1) 0

theorem look_replicate_of {α β : Type} {f : α → β} {y : β} (n i : Nat) {x d : α} (hx : f x = y) (hd : f d = y) :
    f (look (Vector.replicate n x) i d) = y := by
  rw [look_replicate]
  split
  · exact hx
  · exact hd

section Asserted

variable {t : State} (hline : t.resetLine = .asserted) (hout : t.dataOut = [])
include hline hout

/-- An asserted line lets no transaction in: data-out is idle already. -/
theorem takesTransaction_idle (work : State → State) : takesTransaction work t = t := by
  rw [takesTransaction, if_pos hline, idleFill, ← hout]

/-- No request is judged or counted while the line is asserted. -/
theorem exec_request_asserted {c : Instr} (hc : c.isRequest = true) : exec c t = .next t := by
  obtain ⟨row, hrow⟩ | ⟨bytes, rfl⟩ | ⟨code, params, rfl⟩ | rfl := isRequest_cases hc
  · rw [exec_of_requestRow hrow, request_asserted _ _ _ _ hline, idleFill, ← hout]
  · exact congrArg _ (takesTransaction_idle hline hout _)
  · exact congrArg _ (takesTransaction_idle hline hout _)
  · exact congrArg _ (takesTransaction_idle hline hout _)

end Asserted

section Rested

variable {t : State} (hports : ∀ p, PortAtRest (portAt t p)) (hempty : ∀ i, recordAt t i = none)
  (hidle : ∀ l, linkAt t l = Link.idle (linkAt t l).entry) (hmode : t.mode ≠ .quiescing)
include hports hempty hidle hmode

/-- With the ports at rest, the table empty and the links IDLE no event moves the relay. -/
theorem exec_event_rested {c : Instr} (hc : isEvent c = true) (hreset : ∀ line, c ≠ .powerOnReset line) :
    exec c t = .next t := by
  have record (i : Fin 448) := exec_recordTimer_free (i := i) (hempty i) hmode
  have marks (p : PortId) (bit : Fin 16) : startMarkArrives t p bit = t := by
    obtain ⟨-, hreceiver, -⟩ := hports p
    simp [startMarkArrives, markAtBoundary, hreceiver]
  cases c
  case powerOnReset line => exact absurd rfl (hreset line)
  case startMark mark => exact congrArg _ (marks _ _)
  case earlyStartMark mark => exact congrArg _ (marks _ _)
  case scanFrame p slots =>
    obtain ⟨-, hreceiver, -, -, -, hframing, -⟩ := hports p
    refine congrArg _ (?_ : slotsArrive t p slots = t)
    simp [slotsArrive, takeSlots, hreceiver, hframing]
  case watchdogExpiry p =>
    obtain ⟨hoff, -, -, -, -, -, hovertaken⟩ := hports p
    simp [exec, execWatchdogExpiry, hoff, hovertaken]
  case driveTimerExpiry p =>
    obtain ⟨-, -, -, -, hslot, -⟩ := hports p
    refine congrArg _ (?_ : driveExpiry t p = t)
    simp [driveExpiry, hslot, RecallSlot.idle]
  case waitTimerExpiry i => exact (record i).1
  case pullTimerExpiry i => exact (record i).2.1
  case settleTimerExpiry i => exact (record i).2.2.1
  case strikeTimerExpiry i => exact (record i).2.2.2.1
  case cycleTimerExpiry i => exact (record i).2.2.2.2.1
  case protectionTimerExpiry i => exact (record i).2.2.2.2.2
  case periodTimerExpiry l =>
    simp only [exec, execPeriodTimerExpiry]
    rw [hidle l.val]
    rfl
  case keepAliveExpiry l =>
    simp only [exec, execKeepAliveExpiry]
    rw [hidle l.val]
    rfl
  case onDemandFrameStart l =>
    have hcan : canBegin (linkAt t l.val) = false := by
      rw [hidle l.val]
      rfl
    simp [exec, execOnDemandFrameStart, hcan]
  case frameSent l =>
    simp only [exec, execFrameSent]
    rw [hidle l.val]
    rfl
  case replyPeriodClose l words =>
    simp only [exec, execReplyPeriodClose]
    rw [hidle l.val]
    rfl
  all_goals exact absurd hc Bool.false_ne_true

end Rested

/-- While the line is asserted no command but the line's own moves the relay (R168). -/
theorem exec_powered_asserted (s : State) {c : Instr} (hc : ∀ line, c ≠ .powerOnReset line) :
    exec c (powered s .asserted) = .next (powered s .asserted) := by
  cases hreq : c.isRequest with
  | true => exact exec_request_asserted rfl rfl hreq
  | false =>
    cases hev : isEvent c with
    | true =>
      refine exec_event_rested (t := powered s .asserted) (fun p => ?_) recordAt_reset (fun l => ?_) Mode.noConfusion hev hc
      · cases p <;> exact ⟨rfl, rfl, rfl, rfl, rfl, rfl, rfl⟩
      · rw [show linkAt (powered s .asserted) l = Link.idle LinkEntry.unset from linkAt_powered _ _ _ l]
        rfl
    | false =>
      cases c
      case voidTransaction bytes => rfl
      case fetch n => rfl
      all_goals simp [isEvent, Instr.isRequest] at hev hreq

/-- Settles O19: the reset state read table by table, and with the line asserted each transaction and each event. -/
theorem powerOnResetClearsTheRelay : Obligations.PowerOnResetClearsTheRelay := by
  refine ⟨fun s line => ⟨powered s line, rfl, rfl, rfl, ?_⟩, fun _ => rfl, fun s t c h hc => ?_⟩
  · have port (p : PortId) : portAt (powered s line) p = ConsolePort.reset := by cases p <;> rfl
    have hline : attentionLine (powered s line) = false := by
      simp [attentionLine, powered, State.reset]
    refine ⟨fun r => look_replicate_of (f := RankEntry.kind) 64 r rfl rfl,
      fun n => look_replicate_of (f := StopEntry.kind) 256 n rfl rfl,
      fun p i => by rw [port]; exact look_replicate_of (f := SlotEntry.kind) 64 i rfl rfl,
      fun p i => by rw [port]; exact look_replicate_of (f := ReturnEntry.kind) 32 i rfl rfl, fun p => by rw [port]; rfl,
      fun l => look_replicate_of (f := fun x : Link => x.entry.enabled) 4 l rfl rfl,
      fun k => look_replicate_of (f := Rail.entry) 4 k rfl rfl, fun d => look_replicate_default _ _ _,
      fun e => look_replicate_default _ _ _, fun v c => look_replicate_default _ _ _,
      crescendoAt_powered s line, fun w hw => ?_, rfl, rfl, rfl, rfl, fun c => look_replicate_default _ _ _,
      rfl, fun c => look_replicate_default _ _ _, fun c => ?_, hline, (tableEmpty_iff _).mpr recordAt_reset, rfl, rfl⟩
    · obtain ⟨-, rfl⟩ := (by simpa [powered, State.reset] using hw :
        True ∧ w = { base := 0, mask := 0, enabled := false })
      rfl
    · exact (BitVec.getLsbD_allOnes).trans (decide_eq_true (bit_lt c))
  · obtain rfl := Host.Outcome.next.inj h
    exact ⟨exec_powered_asserted s hc, fun i => dataOutByte_of_empty rfl i⟩

end Sys2Proof.Proofs.Steps
end

section
/-! PROOFS. What a request comes to when the port takes it, by its row; the status reads (O24), the counters and the causes
(O25), the attention requests (O26), and the fault check of a shoe (O51). -/

namespace Sys2Proof.Proofs.Reads

open Sys2Proof.Machine Sys2Proof.Proofs.ServicePort Sys2Proof.Proofs.Steps Sys2Proof.Proofs.Restart

/-! ### A request taken by a free port -/

section Taken

variable {c : Instr} {row : RequestRow} {s : State} (hrow : requestRow c = some row) (hfree : PortFree s)
  (htaken : row.taken s.mode = true)
include hrow hfree htaken

/-- A request of a row, of the row's length, is worked and answered. -/
theorem exec_worked (hlength : row.params.length = row.length) :
    exec c s = .next (respond (row.work (idleFill s))) := by
  rw [exec_of_requestRow hrow, request_work _ _ hfree htaken hlength]

/-- A request whose work only answers. -/
theorem exec_answers (hlength : row.params.length = row.length) {st : Status} {payload : List Byte}
    (hwork : row.work (idleFill s) = (idleFill s, { status := st, payload := payload })) :
    exec c s = .next (answered s st payload) := by
  rw [exec_worked hrow hfree htaken hlength, hwork]
  rfl

/-- A request that its own work refuses. -/
theorem exec_refuses (hlength : row.params.length = row.length) {st : Status}
    (hwork : row.work (idleFill s) = refuse (idleFill s) st) : exec c s = .next (answered s st []) :=
  exec_answers hrow hfree htaken hlength hwork

end Taken

theorem byteAt_single (b : Byte) : byteAt [b] 0 = b.toNat := rfl

theorem byteAt_byte {n : Nat} (h : n < 256) : byteAt [byte n] 0 = n := by
  rw [byteAt_single, toNat_byte h]

/-! ### The status reads (O24) -/

theorem portOfCode_portCode (p : PortId) : portOfCode (portCode p) = some p := by
  cases p <;> rfl

theorem portCode_lt (p : PortId) : portCode p < 256 := by
  cases p <;> decide

theorem portOfCode_eq_none_iff {n : Nat} : portOfCode n = none ↔ n ≠ 1 ∧ n ≠ 2 := by
  unfold portOfCode
  split <;> simp_all

theorem portAnswer_of_code (s : State) (p : PortId) (entry : ConsolePort → List Byte) :
    portAnswer s (portCode p) true entry = okWith (entry (portAt s p)) := by
  rw [portAnswer, portOfCode_portCode]
  rfl

theorem within_of_le {n m : Nat} (h : n ≤ m) : within 0 m n = true := by
  simp [within, h]

theorem within_eq_false {n m : Nat} (h : m < n) : within 0 m n = false := by
  simp [within, h]

/-- An entry read by its number: its bytes in the table, RANGE beyond it. -/
theorem entry_of_within {n m : Nat} (h : n ≤ m) (entry : List Byte) : entryAnswer (within 0 m n) entry = okWith entry := by
  rw [entryAnswer, within_of_le h, if_pos rfl]

theorem entry_beyond {n m : Nat} (h : m < n) (entry : List Byte) :
    entryAnswer (within 0 m n) entry = withStatus .range := by
  rw [entryAnswer, within_eq_false h, if_neg Bool.false_ne_true]

section StatusReads

variable {s : State} (hfree : PortFree s)
include hfree

theorem exec_readStatusPort (p : PortId) :
    exec (.readStatusPort [byte (portCode p)]) s = .next (answered s .ok (portStatus (portAt s p))) := by
  refine exec_answers rfl hfree rfl rfl (Prod.ext rfl ?_)
  change portAnswer (idleFill s) (byteAt [byte (portCode p)] 0) true portStatus = _
  rw [byteAt_byte (portCode_lt p), portAnswer_of_code]
  cases p <;> rfl

theorem exec_readStatusPort_range {b : Byte} (h : b.toNat ≠ 1 ∧ b.toNat ≠ 2) :
    exec (.readStatusPort [b]) s = .next (answered s .range []) := by
  refine exec_answers rfl hfree rfl rfl (Prod.ext rfl ?_)
  change portAnswer (idleFill s) (byteAt [b] 0) true portStatus = _
  rw [portAnswer, byteAt_single, portOfCode_eq_none_iff.mpr h]
  rfl

theorem exec_readStatusRail {k : Nat} (hk : k < 4) :
    exec (.readStatusRail [byte k]) s = .next (answered s .ok (railStatus (railAt s k))) := by
  refine exec_answers rfl hfree rfl rfl (Prod.ext rfl ?_)
  change entryAnswer (within 0 3 (byteAt [byte k] 0)) (railStatus (railAt (idleFill s) (byteAt [byte k] 0))) = _
  rw [byteAt_byte (by omega), entry_of_within (by omega)]
  rfl

theorem exec_readStatusRail_range {b : Byte} (h : 3 < b.toNat) :
    exec (.readStatusRail [b]) s = .next (answered s .range []) :=
  exec_answers rfl hfree rfl rfl (Prod.ext rfl (entry_beyond h _))

theorem exec_readStatusLink {l : Nat} (hl : l < 4) :
    exec (.readStatusLink [byte l]) s = .next (answered s .ok (linkStatus s l)) := by
  refine exec_answers rfl hfree rfl rfl (Prod.ext rfl ?_)
  change entryAnswer (within 0 3 (byteAt [byte l] 0)) (linkStatus (idleFill s) (byteAt [byte l] 0)) = _
  rw [byteAt_byte (by omega), entry_of_within (by omega)]
  rfl

theorem exec_readStatusLink_range {b : Byte} (h : 3 < b.toNat) :
    exec (.readStatusLink [b]) s = .next (answered s .range []) :=
  exec_answers rfl hfree rfl rfl (Prod.ext rfl (entry_beyond h _))

theorem exec_readStatusExpression {e : Nat} (he : e < 8) :
    exec (.readStatusExpression [byte e]) s = .next (answered s .ok (exprStatus (runAt s e))) := by
  refine exec_answers rfl hfree rfl rfl (Prod.ext rfl ?_)
  change entryAnswer (within 0 7 (byteAt [byte e] 0)) (exprStatus (runAt (idleFill s) (byteAt [byte e] 0))) = _
  rw [byteAt_byte (by omega), entry_of_within (by omega)]
  rfl

theorem exec_readStatusExpression_range {b : Byte} (h : 7 < b.toNat) :
    exec (.readStatusExpression [b]) s = .next (answered s .range []) :=
  exec_answers rfl hfree rfl rfl (Prod.ext rfl (entry_beyond h _))

theorem exec_readStatusMode (b : Byte) : exec (.readStatusMode [b]) s = .next (answered s .ok (modeStatus s)) :=
  exec_answers rfl hfree rfl rfl rfl

end StatusReads

/-- Outside QUIESCING the mode's two numbers are 0. -/
theorem modeStatus_of_not_quiescing {s : State} (h : s.mode ≠ .quiescing) :
    modeStatus s = [byte (modeCode s.mode), 0, 0, 0] := by
  have hmode : (s.mode == .quiescing) = false := beq_eq_false_iff_ne.mpr h
  rw [modeStatus, hmode]
  simp [keepIf, bytes2, byte]

theorem modeStatus_of_quiescing {s : State} (h : s.mode = .quiescing) :
    modeStatus s = [2] ++ bytes2 (recordsInUse s) ++ [byte (four.filter (unserved s)).length] := by
  have hmode : (s.mode == .quiescing) = true := beq_iff_eq.mpr h
  rw [modeStatus, hmode, h]
  rfl

/-- Settles O24: each read by its row, its number in the table or beyond it. -/
theorem statusReadsAnswerAndChangeNothing : Obligations.StatusReadsAnswerAndChangeNothing := by
  refine fun s hfree => ⟨exec_readStatusPort hfree, fun k hk => exec_readStatusRail hfree hk,
    fun l hl => exec_readStatusLink hfree hl, fun e he => exec_readStatusExpression hfree he,
    fun b => exec_answers rfl hfree rfl rfl rfl, fun b hmode => ?_, fun b hmode => ?_,
    exec_answers rfl hfree rfl rfl rfl, fun b => ⟨fun hA hB => exec_readStatusPort_range hfree ⟨hA, hB⟩,
      exec_readStatusRail_range hfree, exec_readStatusLink_range hfree, exec_readStatusExpression_range hfree⟩⟩
  · rw [exec_readStatusMode hfree, modeStatus_of_not_quiescing hmode]
  · rw [exec_readStatusMode hfree, modeStatus_of_quiescing hmode]

/-! ### Counters and causes (O25) -/

theorem toNat_countUp (w : Word) : (countUp w).toNat = min 65535 (w.toNat + 1) := by
  unfold countUp
  split <;> bv_omega

/-- A counter of a port, of the relay or of one of the four links has a place. -/
theorem place_lt {c : Counter} (h : ∀ l, c = .framesSent l ∨ c = .repliesMissed l → l < 4) : Counter.place c < 24 := by
  cases c with
  | validFrames p => cases p <;> decide
  | earlyStarts p => cases p <;> decide
  | checkFailures p => cases p <;> decide
  | ungranted p => cases p <;> decide
  | framesSent l => have := h l (.inl rfl); simp only [Counter.place]; omega
  | repliesMissed l => have := h l (.inr rfl); simp only [Counter.place]; omega
  | _ => decide

theorem counterAt_bump_same {c : Counter} (h : Counter.place c < 24) (s : State) :
    counterAt (bump s c) c = countUp (counterAt s c) :=
  look_put_same _ _ _ h

theorem counterAt_bump_ne {c d : Counter} (h : Counter.place d ≠ Counter.place c) (s : State) :
    counterAt (bump s c) d = counterAt s d :=
  look_put_ne _ _ _ h.symm

theorem bit_inj {b c : Cause} (h : Cause.bit b = Cause.bit c) : b = c := by
  cases b <;> cases c <;> first | rfl | exact absurd h (by decide)

theorem pending_raise_same (s : State) (c : Cause) (d : Detail) :
    (raise s c d).pendingCauses.getLsbD (Cause.bit c) = true := by
  rw [raise_pendingCauses, getLsbD_withBit]
  simp [bit_lt]

theorem pending_raise_ne {b c : Cause} (h : b ≠ c) (s : State) (d : Detail) :
    (raise s c d).pendingCauses.getLsbD (Cause.bit b) = s.pendingCauses.getLsbD (Cause.bit b) := by
  rw [raise_pendingCauses, getLsbD_withBit, if_neg fun hc => h (bit_inj hc.1).symm]

theorem details_raise_same (s : State) (c : Cause) (d : Detail) :
    look (raise s c d).details (Cause.bit c) .none = d :=
  look_put_same _ _ _ (bit_lt c)

theorem details_raise_ne {b c : Cause} (h : b ≠ c) (s : State) (d : Detail) :
    look (raise s c d).details (Cause.bit b) .none = look s.details (Cause.bit b) .none :=
  look_put_ne _ _ _ fun hc => h (bit_inj hc).symm

theorem firstCause_raise (s : State) (c : Cause) (d : Detail) :
    (raise s c d).firstCause =
      if !attentionLine s && s.enabledCauses.getLsbD (Cause.bit c) then some c else s.firstCause := rfl

/-- An enabled cause that is raised brings the line up. -/
theorem attentionLine_raise {s : State} {c : Cause} (h : s.enabledCauses.getLsbD (Cause.bit c) = true) (d : Detail) :
    attentionLine (raise s c d) = true := by
  rw [attentionLine, bne_iff_ne]
  intro hzero
  have hbit := congrArg (fun x : CauseSet => x.getLsbD (Cause.bit c)) hzero
  simp only [BitVec.getLsbD_and, pending_raise_same, raise_enabledCauses, h, Bool.and_self] at hbit
  exact absurd hbit (by simp)

theorem look_zero_counters (c : Counter) : look (Vector.replicate 24 (0 : Word)) (Counter.place c) 0 = 0 :=
  look_replicate_default 24 (Counter.place c) 0

/-- Settles O25: a counter by its place, a cause by its bit. -/
theorem countersAndCausesAreRaised : Obligations.CountersAndCausesAreRaised := by
  refine ⟨fun s hfree hmode => ⟨_, exec_worked rfl hfree (takenPlaying_of_ne hmode) rfl, look_zero_counters, rfl⟩,
    fun s c hc => ⟨?_, fun d hd => counterAt_bump_ne hd s⟩, fun s c d => ⟨pending_raise_same s c d,
      details_raise_same s c d, fun b hb => ⟨pending_raise_ne hb s d, details_raise_ne hb s d⟩,
      fun hlow henabled => ⟨attentionLine_raise henabled d, ?_⟩, fun h => ?_, rfl⟩⟩
  · rw [counterAt_bump_same (place_lt hc), toNat_countUp]
  · rw [firstCause_raise, hlow, henabled]
    rfl
  · rw [firstCause_raise, if_neg]
    rcases h with h | h <;> simp [h]

/-! ### Attention (O26) -/

/-- The lead is the first of the causes pending and enabled, in the order of their bits. -/
theorem leadCause_eq_some {s : State} {c : Cause} (hc : (s.pendingCauses &&& s.enabledCauses).getLsbD (Cause.bit c) = true)
    (hleast : ∀ b, Cause.bit b < Cause.bit c → (s.pendingCauses &&& s.enabledCauses).getLsbD (Cause.bit b) = false) :
    leadCause s = some c := by
  unfold leadCause
  generalize s.pendingCauses &&& s.enabledCauses = x at hc hleast
  have hsorted : allCauses.Pairwise fun a b => Cause.bit a < Cause.bit b := by decide
  have hmem : c ∈ allCauses := by cases c <;> decide
  rw [List.find?_eq_some_iff_append]
  obtain ⟨before, after, hsplit⟩ := List.append_of_mem hmem
  refine ⟨hc, before, after, hsplit, fun b hb => ?_⟩
  rw [hsplit, List.pairwise_append] at hsorted
  obtain ⟨-, -, hcross⟩ := hsorted
  rw [hleast b (hcross b hb c List.mem_cons_self)]
  rfl

/-- With the line low there is no lead. -/
theorem leadCause_eq_none {s : State} (h : attentionLine s = false) : leadCause s = none := by
  rw [attentionLine, bne_eq_false_iff_eq] at h
  rw [leadCause, h]
  decide

theorem causeCode_some (c : Cause) : causeCode (some c) = Cause.bit c + 1 := rfl

section AttentionRequests

variable {s : State} (hfree : PortFree s)
include hfree

theorem exec_readAttention : exec (.readAttention []) s = .next (answered s .ok (attentionStatus s)) :=
  exec_answers rfl hfree rfl rfl rfl

variable (hmode : s.mode ≠ .quiescing) {params : List Byte} (hlength : params.length = 2)
include hmode hlength

theorem exec_writeAttentionEnable_range (h : causeSetAt params = none) :
    exec (.writeAttentionEnable params) s = .next (answered s .range []) := by
  refine exec_refuses rfl hfree (takenPlaying_of_ne hmode) hlength ?_
  change writeAttentionEnableWork params (idleFill s) = _
  rw [writeAttentionEnableWork, h]

theorem exec_clearAttention_range (h : causeSetAt params = none) :
    exec (.clearAttention params) s = .next (answered s .range []) := by
  refine exec_refuses rfl hfree (takenPlaying_of_ne hmode) hlength ?_
  change clearAttentionWork params (idleFill s) = _
  rw [clearAttentionWork, h]

theorem exec_writeAttentionEnable {x : CauseSet} (h : causeSetAt params = some x) :
    exec (.writeAttentionEnable params) s = .next { answered s .ok (causeSetBytes x) with enabledCauses := x } := by
  rw [exec_worked rfl hfree (takenPlaying_of_ne hmode) hlength]
  change Host.Outcome.next (respond (writeAttentionEnableWork params (idleFill s))) = _
  rw [writeAttentionEnableWork, h]
  rfl

theorem exec_clearAttention {x : CauseSet} (h : causeSetAt params = some x) :
    exec (.clearAttention params) s =
      .next { answered s .ok (causeSetBytes (s.pendingCauses &&& ~~~ x)) with
        pendingCauses := s.pendingCauses &&& ~~~ x } := by
  rw [exec_worked rfl hfree (takenPlaying_of_ne hmode) hlength]
  change Host.Outcome.next (respond (clearAttentionWork params (idleFill s))) = _
  rw [clearAttentionWork, h]
  rfl

end AttentionRequests

/-- Settles O26: the lead by the order of the causes, and the two writes by the set their bytes name. -/
theorem attentionRequestsReadEnableAndClear : Obligations.AttentionRequestsReadEnableAndClear := by
  refine ⟨fun s hfree => ⟨fun c hpending henabled hleast => ?_, fun hlow => ?_⟩, fun s params hfree hmode hlength =>
    ⟨fun hbeyond => ?_, fun hset => ?_⟩⟩
  · have hlead : leadCause s = some c :=
      leadCause_eq_some (by rw [BitVec.getLsbD_and, hpending, henabled]; rfl) hleast
    rw [exec_readAttention hfree, attentionStatus, hlead]
    rfl
  · rw [exec_readAttention hfree, attentionStatus, leadCause_eq_none hlow]
    simp [causeCode, Detail.toBytes, byte]
  · have hnone : causeSetAt params = none := if_neg (Nat.not_lt.mpr hbeyond)
    exact ⟨exec_writeAttentionEnable_range hfree hmode hlength hnone,
      exec_clearAttention_range hfree hmode hlength hnone⟩
  · have hsome : causeSetAt params = some (BitVec.ofNat 12 (wordAt params 0)) := if_pos hset
    exact ⟨exec_writeAttentionEnable hfree hmode hlength hsome, exec_clearAttention hfree hmode hlength hsome⟩

/-! ### The fault check of a shoe (O51) -/

theorem extreme_iff {raw : Nat} : extreme raw = true ↔ raw = 0 ∨ raw = 4095 := by
  simp [extreme]

section FaultCheck

variable {e : ExprEntry} {r : ExprRun} {raw : Nat} (hdetect : e.faultDetect = true)
include hdetect

theorem faultCheck_extreme (h : r.faulted = false) (hraw : raw = 0 ∨ raw = 4095) :
    faultCheck e r raw =
      if e.faultCount ≤ r.runCount + 1 then ({ r with faulted := true, runCount := 0 }, true, true)
      else ({ r with runCount := r.runCount + 1 }, false, false) := by
  simp [faultCheck, hdetect, h, extreme_iff.mpr hraw]

theorem faultCheck_plain (h : r.faulted = false) (hraw : ¬ (raw = 0 ∨ raw = 4095)) :
    faultCheck e r raw = ({ r with runCount := 0 }, false, false) := by
  simp [faultCheck, hdetect, h, mt extreme_iff.mp hraw]

theorem faultCheck_still_extreme (h : r.faulted = true) (hraw : raw = 0 ∨ raw = 4095) :
    faultCheck e r raw = ({ r with runCount := 0 }, true, false) := by
  simp [faultCheck, hdetect, h, extreme_iff.mpr hraw]

theorem faultCheck_clears (h : r.faulted = true) (hraw : ¬ (raw = 0 ∨ raw = 4095)) :
    faultCheck e r raw =
      if e.faultCount ≤ r.runCount + 1 then ({ r with faulted := false, runCount := 0 }, false, false)
      else ({ r with runCount := r.runCount + 1 }, true, false) := by
  simp [faultCheck, hdetect, h, mt extreme_iff.mp hraw]

end FaultCheck

/-- The run state after a list of frames' values. -/
def afterFrames (e : ExprEntry) (r : ExprRun) (raws : List Nat) : ExprRun :=
  raws.foldl (fun x raw => (faultCheck e x raw).1) r

/-- A run that goes on for the rest of its frames turns the shoe exactly when it reaches the count. -/
theorem faulted_afterFrames {e : ExprEntry} (hdetect : e.faultDetect = true) {was : Bool} {raws : List Nat} {r : ExprRun}
    (hfaulted : r.faulted = was) (hraws : ∀ raw ∈ raws, (raw = 0 ∨ raw = 4095) ↔ was = false)
    (hrun : r.runCount < e.faultCount) (hlength : r.runCount + raws.length ≤ e.faultCount) :
    (afterFrames e r raws).faulted = !was ↔ r.runCount + raws.length = e.faultCount := by
  induction raws generalizing r with
  | nil =>
    refine iff_of_false ?_ (by simp only [List.length_nil]; omega)
    rw [afterFrames, List.foldl_nil, hfaulted]
    exact Bool.self_ne_not was
  | cons raw raws ih =>
    have hraw := hraws raw List.mem_cons_self
    have hrest : ∀ x ∈ raws, (x = 0 ∨ x = 4095) ↔ was = false := fun x hx => hraws x (List.mem_cons_of_mem _ hx)
    rw [List.length_cons] at hlength ⊢
    have hcheck : (faultCheck e r raw).1 =
        if e.faultCount ≤ r.runCount + 1 then { r with faulted := !was, runCount := 0 }
        else { r with runCount := r.runCount + 1 } := by
      cases was with
      | false => rw [faultCheck_extreme hdetect hfaulted (hraw.mpr rfl)]; split <;> rfl
      | true => rw [faultCheck_clears hdetect hfaulted (mt hraw.mp (by simp))]; split <;> rfl
    rw [afterFrames, List.foldl_cons, hcheck]
    split
    next hlast =>
      have hnil : raws = [] := List.eq_nil_of_length_eq_zero (by omega)
      subst hnil
      exact iff_of_true rfl (by simp only [List.length_nil]; omega)
    next hmore =>
      have hgoes := ih (r := { r with runCount := r.runCount + 1 }) hfaulted hrest (by dsimp only; omega)
        (by dsimp only; omega)
      rw [afterFrames] at hgoes
      exact hgoes.trans (by dsimp only; omega)

/-- Settles O51: the check by what the shoe is and what it reads, and its runs by the frames that are left. -/
theorem faultCheckCountsRuns : Obligations.FaultCheckCountsRuns := by
  refine ⟨fun e r raw hcount hrun => ⟨fun h => ?_, fun hd h hraw hlast => ?_, fun hd h hraw hmore => ?_,
    fun hd h h0 h1 => faultCheck_plain hd h (by omega), fun hd h hraw => faultCheck_still_extreme hd h hraw,
    fun hd h h0 h1 hlast => ?_, fun hd h h0 h1 hmore => ?_⟩, fun e r raws hd hcount hzero hlength =>
    ⟨fun h hraws => ?_, fun h hraws => ?_⟩⟩
  · simp [faultCheck, h]
  · rw [faultCheck_extreme hd h hraw, if_pos (by omega)]
  · rw [faultCheck_extreme hd h hraw, if_neg (by omega)]
  · rw [faultCheck_clears hd h (by omega), if_pos (by omega)]
  · rw [faultCheck_clears hd h (by omega), if_neg (by omega)]
  · have hruns := faulted_afterFrames (was := false) hd h (fun raw hm => iff_of_true (hraws raw hm) rfl) (by omega)
      (by omega)
    rw [hzero, Nat.zero_add] at hruns
    exact hruns
  · have hruns := faulted_afterFrames (was := true) hd h
      (fun raw hm => iff_of_false (fun hor => hor.elim (hraws raw hm).1 (hraws raw hm).2) (by simp)) (by omega) (by omega)
    rw [hzero, Nat.zero_add] at hruns
    exact hruns

end Sys2Proof.Proofs.Reads
end

section
/-! PROOFS. The timers of the sounding records (R31, R34, R38, R50, R54, R55, R60): what a record stored in place leaves of
the rails and the lists, what the allocator's work leaves of the record and of the flags, and when an expiry completes
the quiesce; and the statements O40 to O43 from these. -/

namespace Sys2Proof.Proofs.RecordTimers

open Sys2Proof.Machine Sys2Proof.Proofs.Steps Sys2Proof.Proofs.Reads Sys2Proof.Proofs.Claims
open Sys2Proof.Proofs.PortLoss Sys2Proof.Proofs.SupplyLists Sys2Proof.Proofs.Registration Sys2Proof.Proofs.Kept

/-! ### The allocator's work raises nothing -/

/-- The attention state stands. -/
structure SameFlags (s t : State) : Prop where
  pending : t.pendingCauses = s.pendingCauses
  details : t.details = s.details
  first : t.firstCause = s.firstCause

namespace SameFlags

theorem refl (s : State) : SameFlags s s := ⟨rfl, rfl, rfl⟩

theorem trans {s t u : State} (h : SameFlags s t) (k : SameFlags t u) : SameFlags s u :=
  ⟨k.pending.trans h.pending, k.details.trans h.details, k.first.trans h.first⟩

end SameFlags

theorem sameFlags_admissionRequest (s : State) (i : Nat) : SameFlags s (admissionRequest s i) := by
  unfold admissionRequest
  split
  · exact .refl s
  · split <;> exact ⟨rfl, rfl, rfl⟩

theorem sameFlags_setRail (s : State) (k : Nat) (v : Rail) : SameFlags s (setRail s k v) := ⟨rfl, rfl, rfl⟩

theorem sameFlags_admitRecord (s : State) (i : Nat) (r : Record) : SameFlags s (admitRecord s i r) := ⟨rfl, rfl, rfl⟩

theorem sameFlags_judgeStrain (s : State) (k : Nat) : SameFlags s (judgeStrain s k) := ⟨rfl, rfl, rfl⟩

theorem sameFlags_headPass (k fuel : Nat) (s : State) : SameFlags s (headPass k fuel s) := by
  induction fuel generalizing s with
  | zero => exact .refl s
  | succ fuel ih =>
    unfold headPass
    split
    · exact .refl s
    split
    · exact .refl s
    split
    · exact ((sameFlags_setRail s k _).trans (sameFlags_admitRecord _ _ _)).trans (ih _)
    · exact .refl s

theorem sameFlags_resumption (s : State) (k : Nat) : SameFlags s (resumption s k) := by
  have resumed (u : State) (i : Nat) : SameFlags u (resumeAt k u i) := by
    unfold resumeAt
    split
    · exact .refl u
    split
    · refine SameFlags.trans ?_ (sameFlags_admissionRequest _ i)
      exact ⟨rfl, rfl, rfl⟩
    · exact .refl u
  exact List.foldlRecOn (motive := SameFlags s) _ _ (.refl s) fun v hv i _ => hv.trans (resumed v i)

theorem sameFlags_allocatorWork (s : State) (k : Nat) : SameFlags s (allocatorWork s k) := by
  have passed : SameFlags s (headPass k (railAt (judgeStrain s k) k).deferred.length (judgeStrain s k)) :=
    (sameFlags_judgeStrain s k).trans (sameFlags_headPass k _ _)
  unfold allocatorWork
  dsimp only
  split
  · exact passed.trans (sameFlags_resumption _ k)
  · exact passed

/-! ### A record stored in place, and the work after it (R65) -/

/-- A draw beyond the four rails never falls. -/
theorem workIfFell_beyond {s u : State} {k : Nat} (hk : ¬ k < 4) : workIfFell s u k = u := by
  have beyond (v : State) : railAt v k = Rail.unset := look_beyond _ _ (Nat.le_of_not_lt hk)
  rw [workIfFell, beyond, beyond, if_neg (Nat.lt_irrefl _)]

/-- A record neither listed nor paused stands while the allocator works. -/
theorem recordAt_workIfFell_of_still {s u : State} {i : Nat} (h : Still i u) (k : Nat) :
    recordAt (workIfFell s u k) i = recordAt u i := by
  by_cases hk : k < 4
  · unfold workIfFell
    split
    · exact (keepsStill_allocatorWork i k hk u h).1
    · rfl
  · rw [workIfFell_beyond hk]

theorem sameDemands_workIfFell (s u : State) (k : Nat) : SameDemands u (workIfFell s u k) := by
  unfold workIfFell
  split
  · exact sameDemands_allocatorWork u k
  · exact .refl u

theorem sameFlags_workIfFell (s u : State) (k : Nat) : SameFlags u (workIfFell s u k) := by
  unfold workIfFell
  split
  · exact sameFlags_allocatorWork u k
  · exact .refl u

theorem tableFrame_workIfFell (s u : State) (k : Nat) : TableFrame u (workIfFell s u k) := by
  unfold workIfFell
  split
  · exact (evolves_allocatorWork u k).frame
  · exact .refl u

theorem counterAt_workIfFell {c : Counter} (hc : Counter.place c ≠ Counter.place .deferredAdmissions) (s u : State)
    (k : Nat) : counterAt (workIfFell s u k) c = counterAt u c := by
  unfold workIfFell
  split
  · exact counterAt_allocatorWork hc u k
  · rfl

theorem recordAt_eq_none_of_sameDemands {s t : State} (h : SameDemands s t) (i : Nat) :
    recordAt t i = none ↔ recordAt s i = none := by
  have hi := h i
  cases hs : recordAt s i <;> cases ht : recordAt t i <;> simp [hs, ht] at hi ⊢

theorem storeRecord_frame (s : State) (i : Nat) (x : Record) :
    storeRecord s i x = { s with table := (storeRecord s i x).table, rails := (storeRecord s i x).rails } := rfl

section Stored

variable {s : State} {i : Nat} {r x : Record} (h : recordAt s i = some r) (hrank : x.rank = r.rank)
include h

theorem recordAt_stored_same : recordAt (storeRecord s i x) i = some x := by
  rw [recordAt_storeRecord, if_pos ⟨rfl, recordAt_lt h⟩]

omit h in
theorem recordAt_stored_ne {j : Nat} (hj : j ≠ i) : recordAt (storeRecord s i x) j = recordAt s j := by
  rw [recordAt_storeRecord, if_neg fun hc => hj hc.1.symm]

include hrank

/-- The draw of the record's rail changes with its charge (R20, R68). -/
theorem railAt_stored {m : Nat} (hm : m < 4) : railAt (storeRecord s i x) m =
    if m = (rankAt s r.rank).rail then { railAt s m with draw := (railAt s m).draw + x.charge - r.charge }
    else railAt s m := by
  have hcharge : chargeAt s i = r.charge := by simp only [chargeAt, h]
  rw [railAt_storeRecord s i m x hm, hcharge, railOf, hrank]
  simp only [eq_comm (a := m)]

theorem sameDemands_stored (hpipe : x.pipe = r.pipe) (hkind : x.kind = r.kind) (hclaims : x.claims = r.claims) :
    SameDemands s (storeRecord s i x) := by
  intro j
  by_cases hj : j = i
  · rw [hj, recordAt_stored_same h, h]
    simp [Record.demand, hrank, hpipe, hkind, hclaims]
  · rw [recordAt_stored_ne hj]

omit hrank

/-- A record that neither waits nor rests is in no list and not paused, and so it is where it is stored unpaused. -/
theorem still_stored (hd : DeferredSound s) (hp : PausedSound s) (hwait : r.state ≠ .waiting)
    (hrest : r.state ≠ .resting) (hpaused : x.paused = r.paused ∨ x.paused = false) : Still i (storeRecord s i x) := by
  refine ⟨fun k hk => ?_, fun y hy => ?_⟩
  · rw [deferred_storeRecord s i k x hk]
    refine not_mem_deferred hd hk fun y hy => ?_
    obtain rfl := Option.some.inj (h.symm.trans hy)
    exact hwait
  · obtain rfl := Option.some.inj ((recordAt_stored_same h).symm.trans hy)
    rcases hpaused with hsame | hfree
    · rw [hsame]
      exact Bool.of_not_eq_true fun hc => hrest (hp i r h hc).2
    · exact hfree

end Stored

theorem paused_of_not_resting {s : State} {i : Nat} {r : Record} (hp : PausedSound s) (h : recordAt s i = some r)
    (hrest : r.state ≠ .resting) : r.paused = false :=
  Bool.of_not_eq_true fun hc => hrest (hp i r h hc).2

/-! ### Wait and pull expiries (O40) -/

/-- A record whose wait is overdue, counted and raised (R31). -/
def waitedOut (s : State) (i : Nat) (r : Record) : State :=
  raise (bump (setRecord s i (some { r with overdue := true, phase := none })) .overdueWaits) .supplyOverdue (.number i)

theorem recordAt_waitedOut (s : State) (i j : Nat) (r : Record) : recordAt (waitedOut s i r) j =
    if i = j ∧ i < 448 then some { r with overdue := true, phase := none } else recordAt s j :=
  recordAt_setRecord s i j _

theorem waitExpiry_of_waiting {s : State} {i : Nat} {r : Record} {ms : Nat} (h : recordAt s i = some r)
    (hstate : r.state = .waiting) (hphase : r.phase = some ms) :
    waitExpiry s i = waitedOut s i r := by
  unfold waitExpiry
  rw [h]
  exact if_pos ⟨hstate, by rw [hphase]; rfl⟩

/-- A PULLING record at its hold charge, SPEAKING (R34). -/
def spoken (e : RankEntry) (r : Record) : Record :=
  { r with state := .speaking, phase := none, charge := if e.hold = 0 then 1 else e.hold }

theorem pullExpiry_of_pulling {s : State} {i : Nat} {r : Record} {ms : Nat} (h : recordAt s i = some r)
    (hstate : r.state = .pulling) (hphase : r.phase = some ms) :
    pullExpiry s i =
      workIfFell s (storeRecord s i (spoken (rankAt s r.rank) r)) (rankAt s r.rank).rail := by
  simp only [pullExpiry, h, hstate, hphase, Option.isSome_some, and_self, if_true]
  rfl

/-- Settles O40: a wait's expiry by its one store, a pull's by the record stored and the allocator's work after it. -/
theorem waitAndPullExpiriesMoveTheirRecord : Obligations.WaitAndPullExpiriesMoveTheirRecord := by
  refine ⟨fun s i r ms h hstate hphase => ?_, fun s i r ms hd hp h hstate hphase => ?_⟩
  · refine ⟨_, congrArg Host.Outcome.next (waitExpiry_of_waiting h hstate hphase), ?_, fun j hj => ?_, rfl, ?_,
      pending_raise_same _ .supplyOverdue _, details_raise_same _ .supplyOverdue _, rfl⟩
    · rw [recordAt_waitedOut, if_pos ⟨rfl, i.isLt⟩]
    · rw [recordAt_waitedOut, if_neg fun hc => hj hc.1.symm]
    · exact counterAt_bump_same (c := .overdueWaits) (by decide) _
  · have hwait : r.state ≠ .waiting := by rw [hstate]; decide
    have hrest : r.state ≠ .resting := by rw [hstate]; decide
    have hstill := still_stored (x := spoken (rankAt s r.rank) r) h hd hp hwait hrest (.inl rfl)
    have hsame := sameDemands_stored (x := spoken (rankAt s r.rank) r) h rfl rfl rfl rfl
    have hrecord : recordAt (workIfFell s (storeRecord s i (spoken (rankAt s r.rank) r)) (rankAt s r.rank).rail) i =
        some (spoken (rankAt s r.rank) r) := by
      rw [recordAt_workIfFell_of_still hstill, recordAt_stored_same h]
    refine ⟨_, congrArg Host.Outcome.next (pullExpiry_of_pulling h hstate hphase), hrecord, fun c => ?_,
      ⟨storeRecord s i (spoken (rankAt s r.rank) r), fun j => ?_, ⟨fun m hm => ?_, rfl⟩, rfl⟩, ?_⟩
    · rw [holdsClaim_iff_of_sameDemands (sameDemands_workIfFell _ _ _), holdsClaim_iff_of_sameDemands hsame]
    · rw [hrecord]
      split
      next hj => rw [hj, recordAt_stored_same h]
      next hj => exact recordAt_stored_ne hj
    · exact railAt_stored (x := spoken (rankAt s r.rank) r) h rfl hm
    · have hframe := tableFrame_workIfFell s (storeRecord s i (spoken (rankAt s r.rank) r)) (rankAt s r.rank).rail
      have hflags := sameFlags_workIfFell s (storeRecord s i (spoken (rankAt s r.rank) r)) (rankAt s r.rank).rail
      generalize workIfFell s _ _ = t at hframe hflags
      unfold TableFrame at hframe
      rw [hframe, hflags.pending, hflags.details, hflags.first]
      rfl

/-! ### Cycle and protection expiries (O43) -/

section Cycle

variable {s : State} {i : Nat} {r : Record} (h : recordAt s i = some r)
include h

theorem cycleOutcome_strained (hstrained : (railAt s (rankAt s r.rank).rail).strained = true) :
    cycleOutcome s i = setRecord s i (some { r with cycle := none, cycleHeld := false, paused := true }) := by
  simp only [cycleOutcome, h, railOf, hstrained, if_true]

theorem cycleOutcome_normal (hnormal : (railAt s (rankAt s r.rank).rail).strained = false) :
    cycleOutcome s i = admissionRequest (setRecord s i (some { r with cycle := none, cycleHeld := false })) i := by
  simp only [cycleOutcome, h, railOf, hnormal, Bool.false_eq_true, if_false]

variable {ms : Nat} (hkind : r.kind = .reiterate) (hcycle : r.cycle = some ms)
include hkind hcycle

theorem cycleExpiry_of_resting (hstate : r.state = .resting) : cycleExpiry s i = cycleOutcome s i := by
  simp only [cycleExpiry, h, hkind, hcycle, hstate, Option.isSome_some, and_self, if_true]

theorem cycleExpiry_of_striking (hstate : r.state = .striking) :
    cycleExpiry s i = setRecord s i (some { r with cycle := some 0, cycleHeld := true }) := by
  simp only [cycleExpiry, h, hkind, hcycle, hstate, Option.isSome_some, and_self, if_true]

end Cycle

/-- A record whose magnet its protection takes off (R60). -/
def locked (r : Record) : Record :=
  { r with state := .locked, charge := 0, phase := none, protection := none }

/-- A locked record stored, the lockout counted and raised, before the allocator's work. -/
def lockedOut (s : State) (i : Nat) (r : Record) : State :=
  raise (bump (storeRecord s i (locked r)) .lockouts) .magnetProtect (.number i)

theorem protectionExpiry_locks {s : State} {i : Nat} {r : Record} {ms : Nat} (h : recordAt s i = some r)
    (hstate : r.state = .pulling ∨ r.state = .speaking) (hprotection : r.protection = some ms) :
    protectionExpiry s i = workIfFell s (lockedOut s i r) (rankAt s r.rank).rail := by
  simp only [protectionExpiry, h, hstate, hprotection, Option.isSome_some, and_self, if_true]
  rfl

/-- Settles O43: a cycle's expiry by the state it finds, a protection's by the record locked and the work after it. -/
theorem cycleAndProtectionExpiries : Obligations.CycleAndProtectionExpiries := by
  refine ⟨fun s i r ms h hkind hcycle => ⟨fun hstate hstrained => ?_, fun hstate hnormal => ?_, fun hstate => ?_⟩,
    fun s i r ms hd hp h hstate hprotection => ?_⟩
  · exact congrArg Host.Outcome.next ((cycleExpiry_of_resting h hkind hcycle hstate).trans (cycleOutcome_strained h hstrained))
  · exact congrArg Host.Outcome.next ((cycleExpiry_of_resting h hkind hcycle hstate).trans (cycleOutcome_normal h hnormal))
  · exact congrArg Host.Outcome.next (cycleExpiry_of_striking h hkind hcycle hstate)
  · have hwait : r.state ≠ .waiting := by rcases hstate with hst | hst <;> rw [hst] <;> decide
    have hrest : r.state ≠ .resting := by rcases hstate with hst | hst <;> rw [hst] <;> decide
    have hstill : Still i.val (lockedOut s i.val r) := still_stored (x := locked r) h hd hp hwait hrest (.inl rfl)
    have hrecord : recordAt (workIfFell s (lockedOut s i.val r) (rankAt s r.rank).rail) i.val = some (locked r) :=
      (recordAt_workIfFell_of_still hstill _).trans (recordAt_stored_same h)
    have hflags := sameFlags_workIfFell s (lockedOut s i.val r) (rankAt s r.rank).rail
    refine ⟨_, congrArg Host.Outcome.next (protectionExpiry_locks h hstate hprotection), hrecord, ?_, ?_, ?_, fun c => ?_,
      storeRecord s i.val (locked r), lockedOut s i.val r, fun j => ?_, ⟨fun m hm => ?_, rfl⟩, rfl, rfl⟩
    · rw [counterAt_workIfFell (by decide)]
      exact counterAt_bump_same (by decide) _
    · rw [hflags.pending]
      exact pending_raise_same _ .magnetProtect _
    · rw [hflags.details]
      exact details_raise_same _ .magnetProtect _
    · have hsame : SameDemands s (lockedOut s i.val r) := sameDemands_stored (x := locked r) h rfl rfl rfl rfl
      rw [holdsClaim_iff_of_sameDemands (sameDemands_workIfFell _ _ _), holdsClaim_iff_of_sameDemands hsame]
    · rw [hrecord]
      split
      next hj => rw [hj, recordAt_stored_same h]
      next hj => exact recordAt_stored_ne hj
    · exact railAt_stored (x := locked r) h rfl hm

end Sys2Proof.Proofs.RecordTimers
end

section
/-! PROOFS. The settle and strike expiries (R38, R50, R52, R54): when an expiry completes the quiesce (R46, R166), what the
settle outcome comes to, and the statements O41 and O42 from these. -/

namespace Sys2Proof.Proofs.RecordTimers

open Sys2Proof.Machine Sys2Proof.Proofs.Steps Sys2Proof.Proofs.Reads Sys2Proof.Proofs.Claims
open Sys2Proof.Proofs.PortLoss Sys2Proof.Proofs.SupplyLists Sys2Proof.Proofs.Registration Sys2Proof.Proofs.Kept

/-! ### Quiesce completion (R166) -/

/-- Every enabled link has served the quiesce. -/
def AllServed (s : State) : Prop :=
  ∀ l, l < 4 → (linkAt s l).entry.enabled = false ∨ (linkAt s l).served = true

theorem unserved_eq_false_iff {s : State} {l : Nat} :
    unserved s l = false ↔ (linkAt s l).entry.enabled = false ∨ (linkAt s l).served = true := by
  cases he : (linkAt s l).entry.enabled <;> cases hv : (linkAt s l).served <;> simp [unserved, he, hv]

theorem quiesceDone_iff {s : State} :
    quiesceDone s = true ↔ s.mode = .quiescing ∧ (∀ i, recordAt s i = none) ∧ AllServed s := by
  simp only [quiesceDone, Bool.and_eq_true, beq_iff_eq, tableEmpty_iff, Bool.not_eq_true', List.any_eq_false,
    Bool.not_eq_true, unserved_eq_false_iff, four, and_assoc]
  refine and_congr_right fun _ => and_congr_right fun _ => ⟨fun h l hl => h l ?_, fun h l hl => h l ?_⟩
  · interval_cases l <;> simp
  · simp only [List.mem_cons, List.not_mem_nil, or_false] at hl
    omega

theorem settleMode_of_record {s : State} {i : Nat} {r : Record} (h : recordAt s i = some r) : settleMode s = s := by
  rw [settleMode, if_neg]
  rw [quiesceDone_iff]
  rintro ⟨-, hempty, -⟩
  exact absurd ((hempty i).symm.trans h) (by simp)

theorem settleMode_of_done {s : State} (h : quiesceDone s = true) : settleMode s = completeQuiesce s := if_pos h

theorem settleMode_of_not_done {s : State} (h : ¬ quiesceDone s = true) : settleMode s = s := if_neg h

/-- Completed, the relay is in CONFIG with every link IDLE, and QUIESCED is raised. -/
theorem completeQuiesce_reports (s : State) :
    (completeQuiesce s).mode = .config
      ∧ (∀ l, l < 4 → (linkAt (completeQuiesce s) l).state = .idle ∧ (linkAt (completeQuiesce s) l).miss = 0
        ∧ (linkAt (completeQuiesce s) l).flight = .free)
      ∧ (completeQuiesce s).pendingCauses.getLsbD 11 = true ∧ look (completeQuiesce s).details 11 .none = .none := by
  refine ⟨rfl, fun l hl => ?_, pending_raise_same _ .quiesced _, details_raise_same _ .quiesced _⟩
  rw [linkAt_completeQuiesce s hl]
  exact ⟨rfl, rfl, rfl⟩

theorem recordAt_settleMode (s : State) (j : Nat) : recordAt (settleMode s) j = recordAt s j := by
  unfold settleMode
  split <;> rfl

/-- The last record of a relay whose links have all served. -/
def LastOne (s : State) (i : Nat) : Prop :=
  (∀ j, j ≠ i → recordAt s j = none) ∧ AllServed s

/-- A freed record leaves the quiesce complete exactly when it was the last. -/
theorem quiesceDone_freeRecord {s : State} {i : Nat} :
    quiesceDone (freeRecord s i) = true ↔ s.mode = .quiescing ∧ LastOne s i := by
  have hlinks : (freeRecord s i).links = s.links := by rw [(evolves_freeRecord s i).frame]
  rw [quiesceDone_iff, (evolves_freeRecord s i).mode_eq]
  refine and_congr_right fun _ => and_congr ?_ ?_
  · refine ⟨fun h j hj => ?_, fun h j => ?_⟩
    · have hfree := h j
      rwa [recordAt_freeRecord, if_neg (Ne.symm hj)] at hfree
    · rw [recordAt_freeRecord]
      split
      · rfl
      next hj => exact h j (Ne.symm hj)
  · simp only [AllServed, linkAt_of_links hlinks]

theorem freeRecord_frame (s : State) (i : Nat) :
    freeRecord s i = { s with table := (freeRecord s i).table, rails := (freeRecord s i).rails } := by
  unfold freeRecord
  split <;> rfl

/-! ### The settle outcome (R38, R52, R58) -/

section Outcome

variable {s : State} {i : Nat} {r : Record} (h : recordAt s i = some r)
include h

theorem settleOutcome_frees (hclaims : r.claims = []) : settleOutcome s i = freeRecord s i := by
  unfold settleOutcome
  rw [h]
  exact if_pos hclaims

theorem settleOutcome_strikes (hclaims : r.claims ≠ []) (hkind : r.kind = .strike) (hrestrike : r.restrike = false) :
    settleOutcome s i = setRecord s i (some { r with state := .struck, phase := none }) := by
  unfold settleOutcome
  rw [h]
  exact (if_neg hclaims).trans (if_pos ⟨hkind, hrestrike⟩)

theorem settleOutcome_asks (hclaims : r.claims ≠ []) (hagain : r.kind ≠ .strike ∨ r.restrike = true) :
    settleOutcome s i = admissionRequest (setRecord s i (some { r with restrike := false, phase := none })) i := by
  unfold settleOutcome
  rw [h]
  refine (if_neg hclaims).trans (if_neg ?_)
  rintro ⟨hkind, hrestrike⟩
  rcases hagain with hk | hr
  · exact hk hkind
  · exact absurd (hrestrike.symm.trans hr) (by decide)

end Outcome

/-- A record that asks again is in use. -/
theorem exists_recordAt_asks {s : State} {i : Nat} {x : Record} (hi : i < 448) :
    ∃ y, recordAt (admissionRequest (setRecord s i (some x)) i) i = some y
      ∧ (y = asAdmitted (rankAt s x.rank) x ∨ y = waitFor (railAt s (railOf s x)) x) := by
  have hset : recordAt (setRecord s i (some x)) i = some x := by rw [recordAt_setRecord, if_pos ⟨rfl, hi⟩]
  rcases recordAt_admissionRequest_same hset with h | h
  · exact ⟨_, h, .inl rfl⟩
  · exact ⟨_, h, .inr rfl⟩

/-! ### The settle expiry (O41) -/

theorem settleExpiry_of_settling {s : State} {i : Nat} {r : Record} {ms : Nat} (h : recordAt s i = some r)
    (hstate : r.state = .settling) (hphase : r.phase = some ms) : settleExpiry s i = settleOutcome s i := by
  unfold settleExpiry
  rw [h]
  exact if_pos ⟨hstate, by rw [hphase]; rfl⟩

/-- An expiry whose outcome leaves its record in use leaves the mode. -/
theorem exec_settleTimerExpiry_of_record {s t : State} {i : Fin 448} (h : settleExpiry s i.val = t) {x : Record}
    (hx : recordAt t i.val = some x) : exec (.settleTimerExpiry i) s = .next t := by
  rw [← settleMode_of_record hx, ← h]
  rfl

/-- Settles O41: the outcome by the record, and the quiesce by whether it was the last. -/
theorem settleExpiryFreesOrAsksAgain : Obligations.SettleExpiryFreesOrAsksAgain := by
  intro s i r ms h hstate hphase
  have hexp := settleExpiry_of_settling h hstate hphase
  refine ⟨fun hclaims => ?_, fun hclaims hkind hrestrike => ?_, fun hclaims hagain => ?_⟩
  · have hfree : settleExpiry s i.val = freeRecord s i.val := hexp.trans (settleOutcome_frees h hclaims)
    have hgone (j : Nat) : recordAt (settleMode (freeRecord s i.val)) j =
        if i.val = j then none else recordAt s j := by
      rw [recordAt_settleMode, recordAt_freeRecord]
    refine ⟨settleMode (freeRecord s i.val), congrArg (fun t => Host.Outcome.next (settleMode t)) hfree, ?_,
      fun j hj => ?_, fun hnot => ?_, fun hquiescing hlast => ?_⟩
    · rw [hgone, if_pos rfl]
    · rw [hgone, if_neg (Ne.symm hj)]
    · rw [settleMode_of_not_done]
      · exact freeRecord_frame s i.val
      · rw [quiesceDone_freeRecord]
        rintro ⟨hmode, hlast⟩
        rcases hnot with hn | hn
        · exact hn hmode
        · exact hn hlast
    · have hdone := quiesceDone_freeRecord.mpr ⟨hquiescing, hlast⟩
      rw [settleMode_of_done hdone]
      obtain ⟨hmode, hlinks, hpending, hdetail⟩ := completeQuiesce_reports (freeRecord s i.val)
      exact ⟨hmode, (tableEmpty_iff _).mpr (quiesceDone_iff.mp hdone).2.1, hlinks, hpending, hdetail⟩
  · exact exec_settleTimerExpiry_of_record (hexp.trans (settleOutcome_strikes h hclaims hkind hrestrike))
      ((recordAt_setRecord s i i _).trans (if_pos ⟨rfl, i.isLt⟩))
  · obtain ⟨y, hy, -⟩ := exists_recordAt_asks (s := s) (x := { r with restrike := false, phase := none }) i.isLt
    exact exec_settleTimerExpiry_of_record (hexp.trans (settleOutcome_asks h hclaims hagain)) hy

/-! ### The strike expiry (O42) -/

/-- A roll's pulse that ends with claims and no restrike pending. -/
def Rests (r : Record) : Prop :=
  r.kind = .reiterate ∧ r.claims ≠ [] ∧ r.restrike = false

/-- The roll at the end of its pulse, RESTING (R54). -/
def rested (r : Record) : Record :=
  { r with state := .resting, charge := 0, phase := none, cycleHeld := false }

/-- Any other pulse's record at its end, SETTLING (R50, R54). -/
def settled (e : RankEntry) (r : Record) : Record :=
  { r with
    state := .settling, charge := 0, phase := some e.minOff, cycle := none, cycleHeld := false, protection := none
    restrike := if r.kind = .reiterate then false else r.restrike }

/-- The state once the pulse's end is stored and the allocator has worked on a fall of the draw. -/
def pulseEnded (s : State) (i : Nat) (x : Record) (k : Nat) : State :=
  workIfFell s (storeRecord s i x) k

section Strike

variable {s : State} {i : Nat} {r : Record} {ms : Nat} (h : recordAt s i = some r) (hstate : r.state = .striking)
  (hphase : r.phase = some ms)
include h hstate hphase

theorem strikeExpiry_rests (hrests : Rests r) :
    strikeExpiry s i =
      if r.cycleHeld then cycleOutcome (pulseEnded s i (rested r) (rankAt s r.rank).rail) i
      else pulseEnded s i (rested r) (rankAt s r.rank).rail := by
  unfold strikeExpiry
  rw [h]
  exact (if_pos ⟨hstate, by rw [hphase]; rfl⟩).trans (if_pos hrests)

theorem strikeExpiry_settles (hrests : ¬ Rests r) (hpaused : r.paused = false) :
    strikeExpiry s i =
      settleAtOnce (pulseEnded s i (settled (rankAt s r.rank) r) (rankAt s r.rank).rail) i := by
  have hplain : settling (rankAt s r.rank) r = { settled (rankAt s r.rank) r with restrike := r.restrike } := by
    simp [settling, settled, hpaused]
  unfold strikeExpiry
  rw [h]
  refine (if_pos ⟨hstate, by rw [hphase]; rfl⟩).trans ((if_neg hrests).trans ?_)
  split
  next hkind =>
    have hsettled : settling (rankAt s r.rank) { r with restrike := false } = settled (rankAt s r.rank) r := by
      simp [settling, settled, hpaused, hkind]
    unfold enterSettling
    dsimp only
    rw [hsettled]
    rfl
  next hkind =>
    have hsettled : settling (rankAt s r.rank) r = settled (rankAt s r.rank) r := by
      rw [hplain]
      simp [settled, hkind]
    unfold enterSettling
    rw [hsettled]
    rfl

end Strike

theorem settleAtOnce_of_minOff {s : State} {i : Nat} {r : Record} (h : recordAt s i = some r) :
    settleAtOnce s i = if (rankAt s r.rank).minOff = 0 then settleOutcome s i else s := by
  unfold settleAtOnce
  rw [h]

/-- A record of charge 0 is freed without a change of any rail. -/
theorem rails_freeRecord {s : State} {i : Nat} {r : Record} (h : recordAt s i = some r) (hcharge : r.charge = 0) :
    (freeRecord s i).rails = s.rails := by
  unfold freeRecord
  rw [h]
  dsimp only
  rw [hcharge]
  by_cases hk : railOf s r < 4
  · exact Supply.put_look s.rails Rail.unset hk
  · rw [setRail_rails, put, Vector.setIfInBounds_eq_of_size_le (Nat.le_of_not_lt hk)]
    rfl

/-- The end of a pulse: the state with its record stored, and the state after the allocator's work. -/
structure PulseEnd (s : State) (i : Nat) (r x : Record) (u w : State) : Prop where
  stored : recordAt u i = some x
  worked : recordAt w i = some x
  others : ∀ j, j ≠ i → recordAt u j = recordAt s j
  rails : ∀ m, m < 4 → railAt u m =
    if m = (rankAt s r.rank).rail then { railAt s m with draw := (railAt s m).draw - r.charge } else railAt s m
  frame : u = { s with table := u.table, rails := u.rails }
  work : w = if (railAt u (rankAt s r.rank).rail).draw < (railAt s (rankAt s r.rank).rail).draw then
    allocatorWork u (rankAt s r.rank).rail else u
  still : ∀ j, j ≠ i → (recordAt w j = none ↔ recordAt s j = none)
  tableFrame : TableFrame s w

theorem pulseEnd_of_stored {s : State} {i : Nat} {r x : Record} (hd : DeferredSound s) (hp : PausedSound s)
    (h : recordAt s i = some r) (hstate : r.state = .striking) (hrank : x.rank = r.rank) (hcharge : x.charge = 0)
    (hpaused : x.paused = r.paused) :
    PulseEnd s i r x (storeRecord s i x) (pulseEnded s i x (rankAt s r.rank).rail) := by
  have hstill : Still i (storeRecord s i x) :=
    still_stored h hd hp (by rw [hstate]; decide) (by rw [hstate]; decide) (.inl hpaused)
  have hstored := recordAt_stored_same (x := x) h
  refine ⟨hstored, (recordAt_workIfFell_of_still hstill _).trans hstored, fun j hj => recordAt_stored_ne hj,
    fun m hm => ?_, rfl, rfl, fun j hj => ?_, TableFrame.trans ?_ (tableFrame_workIfFell _ _ _)⟩
  · rw [railAt_stored h hrank hm, hcharge, Nat.add_zero]
  · rw [pulseEnded, recordAt_eq_none_of_sameDemands (sameDemands_workIfFell _ _ _), recordAt_stored_ne hj]
  · exact rfl

section AfterPulse

variable {s w : State} {i : Nat} {r x u : Record} {v : State} (hend : PulseEnd s i r x v w)
include hend

theorem PulseEnd.rankAt_eq (q : Nat) : rankAt w q = rankAt s q := by
  rw [rankAt, hend.tableFrame, rankAt]

theorem PulseEnd.mode_eq : w.mode = s.mode := by
  rw [hend.tableFrame]

theorem PulseEnd.links_eq : w.links = s.links := by
  rw [hend.tableFrame]

theorem PulseEnd.lastOne_iff : LastOne w i ↔ LastOne s i := by
  refine and_congr (forall_congr' fun j => ?_) ?_
  · exact forall_congr' fun hj => hend.still j hj
  · simp only [AllServed, linkAt_of_links hend.links_eq]

end AfterPulse

/-! What the expiry comes to, by the pulse. -/

section Outcomes

variable {s : State} {i : Nat} {r : Record} {ms : Nat} (hd : DeferredSound s) (hp : PausedSound s)
  (h : recordAt s i = some r) (hstate : r.state = .striking)
include hd hp h hstate

theorem pulseEnd_rests : PulseEnd s i r (rested r) (storeRecord s i (rested r))
    (pulseEnded s i (rested r) (rankAt s r.rank).rail) :=
  pulseEnd_of_stored hd hp h hstate rfl rfl rfl

theorem pulseEnd_settles : PulseEnd s i r (settled (rankAt s r.rank) r) (storeRecord s i (settled (rankAt s r.rank) r))
    (pulseEnded s i (settled (rankAt s r.rank) r) (rankAt s r.rank).rail) :=
  pulseEnd_of_stored hd hp h hstate rfl rfl rfl

variable (hphase : r.phase = some ms)
include hphase

omit hd hp in
theorem struck_rests (hrests : Rests r) (hheld : r.cycleHeld = false) :
    strikeExpiry s i = pulseEnded s i (rested r) (rankAt s r.rank).rail := by
  rw [strikeExpiry_rests h hstate hphase hrests, hheld, if_neg Bool.false_ne_true]

theorem struck_pauses (hrests : Rests r) (hheld : r.cycleHeld = true)
    (hstrained : (railAt (pulseEnded s i (rested r) (rankAt s r.rank).rail) (rankAt s r.rank).rail).strained = true) :
    strikeExpiry s i = setRecord (pulseEnded s i (rested r) (rankAt s r.rank).rail) i
      (some { rested r with cycle := none, paused := true }) := by
  have hend := pulseEnd_rests hd hp h hstate
  rw [strikeExpiry_rests h hstate hphase hrests, hheld, if_pos rfl]
  exact cycleOutcome_strained hend.worked (by rw [hend.rankAt_eq]; exact hstrained)

theorem struck_strikesAgain (hrests : Rests r) (hheld : r.cycleHeld = true)
    (hnormal : (railAt (pulseEnded s i (rested r) (rankAt s r.rank).rail) (rankAt s r.rank).rail).strained = false) :
    strikeExpiry s i = admissionRequest (setRecord (pulseEnded s i (rested r) (rankAt s r.rank).rail) i
      (some { rested r with cycle := none })) i := by
  have hend := pulseEnd_rests hd hp h hstate
  rw [strikeExpiry_rests h hstate hphase hrests, hheld, if_pos rfl]
  exact cycleOutcome_normal hend.worked (by rw [hend.rankAt_eq]; exact hnormal)

/-- Any other pulse settles, and takes the outcome in the same step where its rank has no minimum off time. -/
theorem struck_settles (hrests : ¬ Rests r) :
    strikeExpiry s i = if (rankAt s r.rank).minOff = 0 then
        settleOutcome (pulseEnded s i (settled (rankAt s r.rank) r) (rankAt s r.rank).rail) i
      else pulseEnded s i (settled (rankAt s r.rank) r) (rankAt s r.rank).rail := by
  have hend := pulseEnd_settles hd hp h hstate
  have hpaused := paused_of_not_resting hp h (by rw [hstate]; decide)
  rw [strikeExpiry_settles h hstate hphase hrests hpaused, settleAtOnce_of_minOff hend.worked, hend.rankAt_eq]
  rfl

theorem struck_runs (hrests : ¬ Rests r) (hoff : (rankAt s r.rank).minOff ≠ 0) :
    strikeExpiry s i = pulseEnded s i (settled (rankAt s r.rank) r) (rankAt s r.rank).rail := by
  rw [struck_settles hd hp h hstate hphase hrests, if_neg hoff]

section AtOnce

variable (hrests : ¬ Rests r) (hoff : (rankAt s r.rank).minOff = 0)
include hrests hoff

theorem struck_frees (hclaims : r.claims = []) :
    strikeExpiry s i = freeRecord (pulseEnded s i (settled (rankAt s r.rank) r) (rankAt s r.rank).rail) i := by
  rw [struck_settles hd hp h hstate hphase hrests, if_pos hoff]
  exact settleOutcome_frees (pulseEnd_settles hd hp h hstate).worked hclaims

theorem struck_strikes (hclaims : r.claims ≠ []) (hkind : r.kind = .strike) (hrestrike : r.restrike = false) :
    strikeExpiry s i = setRecord (pulseEnded s i (settled (rankAt s r.rank) r) (rankAt s r.rank).rail) i
      (some { settled (rankAt s r.rank) r with state := .struck, phase := none }) := by
  rw [struck_settles hd hp h hstate hphase hrests, if_pos hoff]
  refine settleOutcome_strikes (pulseEnd_settles hd hp h hstate).worked hclaims hkind ?_
  simp [settled, hkind, hrestrike]

theorem struck_asks (hclaims : r.claims ≠ []) (hagain : r.kind ≠ .strike ∨ r.restrike = true) :
    strikeExpiry s i = admissionRequest (setRecord
      (pulseEnded s i (settled (rankAt s r.rank) r) (rankAt s r.rank).rail) i
      (some { settled (rankAt s r.rank) r with restrike := false, phase := none })) i := by
  rw [struck_settles hd hp h hstate hphase hrests, if_pos hoff]
  refine settleOutcome_asks (pulseEnd_settles hd hp h hstate).worked hclaims ?_
  by_cases hkind : r.kind = .strike
  · exact .inr (by simpa [settled, hkind] using hagain.resolve_left fun hk => hk hkind)
  · exact .inl hkind

end AtOnce

/-- Unless a record without claims is freed at once, its index is in use after the expiry. -/
theorem exists_struck (hstays : r.claims ≠ [] ∨ (rankAt s r.rank).minOff ≠ 0) :
    ∃ x, recordAt (strikeExpiry s i) i = some x := by
  have hi := recordAt_lt h
  have hset (u : State) (x : Record) : recordAt (setRecord u i (some x)) i = some x := by
    rw [recordAt_setRecord, if_pos ⟨rfl, hi⟩]
  by_cases hrests : Rests r
  · cases hheld : r.cycleHeld with
    | false =>
      rw [struck_rests h hstate hphase hrests hheld]
      exact ⟨_, (pulseEnd_rests hd hp h hstate).worked⟩
    | true =>
      cases hstrain : (railAt (pulseEnded s i (rested r) (rankAt s r.rank).rail) (rankAt s r.rank).rail).strained with
      | true =>
        rw [struck_pauses hd hp h hstate hphase hrests hheld hstrain]
        exact ⟨_, hset _ _⟩
      | false =>
        rw [struck_strikesAgain hd hp h hstate hphase hrests hheld hstrain]
        obtain ⟨y, hy, -⟩ := exists_recordAt_asks hi
        exact ⟨y, hy⟩
  · by_cases hoff : (rankAt s r.rank).minOff = 0
    · have hclaims := hstays.resolve_right fun hne => hne hoff
      by_cases hagain : r.kind ≠ .strike ∨ r.restrike = true
      · rw [struck_asks hd hp h hstate hphase hrests hoff hclaims hagain]
        obtain ⟨y, hy, -⟩ := exists_recordAt_asks hi
        exact ⟨y, hy⟩
      · simp only [ne_eq, not_or, not_not, Bool.not_eq_true] at hagain
        rw [struck_strikes hd hp h hstate hphase hrests hoff hclaims hagain.1 hagain.2]
        exact ⟨_, hset _ _⟩
    · rw [struck_runs hd hp h hstate hphase hrests hoff]
      exact ⟨_, (pulseEnd_settles hd hp h hstate).worked⟩

/-- And then the quiesce does not complete. -/
theorem settleMode_struck (hstays : r.claims ≠ [] ∨ (rankAt s r.rank).minOff ≠ 0) :
    settleMode (strikeExpiry s i) = strikeExpiry s i := by
  obtain ⟨x, hx⟩ := exists_struck hd hp h hstate hphase hstays
  exact settleMode_of_record hx

/-- A record freed at once completes the quiesce exactly when it was the last. -/
theorem quiesceDone_struck (hrests : ¬ Rests r) (hoff : (rankAt s r.rank).minOff = 0) (hclaims : r.claims = []) :
    quiesceDone (strikeExpiry s i) = true ↔ s.mode = .quiescing ∧ LastOne s i := by
  have hend := pulseEnd_settles hd hp h hstate
  rw [struck_frees hd hp h hstate hphase hrests hoff hclaims, quiesceDone_freeRecord, hend.mode_eq, hend.lastOne_iff]

end Outcomes

theorem not_rests_of_claims {r : Record} (h : r.claims = []) : ¬ Rests r := fun hr => hr.2.1 h

theorem not_rests_of_restrike {r : Record} (h : r.restrike = true) : ¬ Rests r :=
  fun hr => absurd (hr.2.2.symm.trans h) (by decide)

theorem not_rests_of_strike {r : Record} (h : r.kind = .strike) : ¬ Rests r :=
  fun hr => absurd (hr.1.symm.trans h) (by decide)

theorem settleMode_frame (s : State) :
    (settleMode s).rails = s.rails ∧ (settleMode s).counters = s.counters := by
  unfold settleMode
  split <;> exact ⟨rfl, rfl⟩

/-- Settles O42: each clause by the pulse it speaks of, from the state that the pulse's end leaves. -/
theorem strikeExpiryEndsThePulse : Obligations.StrikeExpiryEndsThePulse := by
  intro s i r ms hd hp h hstate hphase
  have hi : i.val < 448 := i.isLt
  have hstands := settleMode_struck hd hp h hstate hphase
  have hset (u : State) (x : Record) : recordAt (setRecord u i.val (some x)) i.val = some x := by
    rw [recordAt_setRecord, if_pos ⟨rfl, hi⟩]
  have hframe (hstays : r.claims ≠ [] ∨ (rankAt s r.rank).minOff ≠ 0) :
      (settleMode (strikeExpiry s i.val)).mode = s.mode ∧ (settleMode (strikeExpiry s i.val)).links = s.links := by
    rw [hstands hstays, (evolves_strikeExpiry s i.val).frame]
    exact ⟨rfl, rfl⟩
  refine ⟨settleMode (strikeExpiry s i.val), rfl, fun hoff hkind => ?_, fun hoff hkind hagain => ?_,
    fun hoff hclaims hkind => ?_, fun hoff hclaims hkind hrestrike => ?_, fun hoff hclaims hkind hrestrike => ?_,
    fun hkind hclaims hrestrike hheld => ?_, fun hkind hclaims hrestrike hheld => ?_, ?_, hframe⟩
  · rw [hstands (.inr hoff), struck_runs hd hp h hstate hphase (not_rests_of_strike hkind) hoff,
      (pulseEnd_settles hd hp h hstate).worked]
    simp [settled, hkind]
  · have hrests : ¬ Rests r := hagain.elim not_rests_of_claims not_rests_of_restrike
    rw [hstands (.inr hoff), struck_runs hd hp h hstate hphase hrests hoff, (pulseEnd_settles hd hp h hstate).worked]
    simp [settled, hkind]
  · have hrests := not_rests_of_claims hclaims
    have hdone := quiesceDone_struck hd hp h hstate hphase hrests hoff hclaims
    refine ⟨?_, fun hquiescing hlast => ?_, fun hnot => ?_⟩
    · rw [recordAt_settleMode, struck_frees hd hp h hstate hphase hrests hoff hclaims, recordAt_freeRecord, if_pos rfl]
    · rw [settleMode_of_done (hdone.mpr ⟨hquiescing, hlast⟩)]
      obtain ⟨hmode, -, hpending, hdetail⟩ := completeQuiesce_reports (strikeExpiry s i.val)
      exact ⟨hmode, hpending, hdetail⟩
    · rw [settleMode_of_not_done, (evolves_strikeExpiry s i.val).frame]
      · exact ⟨rfl, rfl⟩
      · rw [hdone]
        rintro ⟨hmode, hlast⟩
        exact hnot.elim (fun hn => hn hmode) fun hn => hn hlast
  · rw [hstands (.inl hclaims), struck_strikes hd hp h hstate hphase (not_rests_of_strike hkind) hoff hclaims hkind
      hrestrike, hset]
    simp [settled, hkind]
  · rw [hstands (.inl hclaims), struck_asks hd hp h hstate hphase (not_rests_of_restrike hrestrike) hoff hclaims
      (.inr hrestrike)]
    obtain ⟨y, hy, rfl | rfl⟩ := exists_recordAt_asks hi
    · refine ⟨_, hy, rfl, rfl, .inl ?_⟩
      rcases hkind with hk | hk <;> simp [asAdmitted, settled, hk]
    · exact ⟨_, hy, rfl, rfl, .inr rfl⟩
  · rw [hstands (.inl hclaims), struck_rests h hstate hphase ⟨hkind, hclaims, hrestrike⟩ hheld,
      (pulseEnd_rests hd hp h hstate).worked]
    simp [rested, hheld]
  · have hrests : Rests r := ⟨hkind, hclaims, hrestrike⟩
    rw [hstands (.inl hclaims)]
    cases hstrain : (railAt (pulseEnded s i.val (rested r) (rankAt s r.rank).rail) (rankAt s r.rank).rail).strained with
    | true =>
      rw [struck_pauses hd hp h hstate hphase hrests hheld hstrain]
      exact ⟨_, hset _ _, rfl, rfl, .inr (.inr ⟨rfl, rfl, rfl⟩)⟩
    | false =>
      rw [struck_strikesAgain hd hp h hstate hphase hrests hheld hstrain]
      obtain ⟨y, hy, rfl | rfl⟩ := exists_recordAt_asks hi
      · exact ⟨_, hy, rfl, by simp [asAdmitted, rested, hkind], .inl (by simp [asAdmitted, rested, hkind])⟩
      · exact ⟨_, hy, rfl, rfl, .inr (.inl rfl)⟩
  · by_cases hrests : Rests r
    · have hend := pulseEnd_rests hd hp h hstate
      have hT := hstands (.inl hrests.2.1)
      refine ⟨_, _, fun _ => hend.stored, fun hn => absurd hrests hn, hend.others, hend.rails, hend.frame, hend.work,
        fun _ hheld => ?_, fun _ hheld hstrain => ?_, fun _ hheld hnormal => ?_, fun hn => absurd hrests hn,
        fun hn => absurd hrests hn, fun hn => absurd hrests hn, fun hn => absurd hrests hn⟩
      · rw [hT, struck_rests h hstate hphase hrests hheld]
      · rw [hT, struck_pauses hd hp h hstate hphase hrests hheld hstrain]
        rfl
      · rw [hT, struck_strikesAgain hd hp h hstate hphase hrests hheld hnormal]
        rfl
    · have hend := pulseEnd_settles hd hp h hstate
      refine ⟨_, _, fun hr => absurd hr hrests, fun _ => hend.stored, hend.others, hend.rails, hend.frame, hend.work,
        fun hr => absurd hr hrests, fun hr => absurd hr hrests, fun hr => absurd hr hrests, fun _ hoff => ?_,
        fun _ hoff hclaims hkind hrestrike => ?_, fun _ hoff hclaims hagain => ?_, fun _ hoff hclaims =>
          ⟨fun j hj => ?_, ?_⟩⟩
      · rw [hstands (.inr hoff), struck_runs hd hp h hstate hphase hrests hoff]
      · rw [hstands (.inl hclaims), struck_strikes hd hp h hstate hphase hrests hoff hclaims hkind hrestrike]
        rfl
      · rw [hstands (.inl hclaims), struck_asks hd hp h hstate hphase hrests hoff hclaims hagain]
        rfl
      · rw [recordAt_settleMode, struck_frees hd hp h hstate hphase hrests hoff hclaims, recordAt_freeRecord,
          if_neg (Ne.symm hj)]
      · obtain ⟨hrails, hcounters⟩ := settleMode_frame (strikeExpiry s i.val)
        rw [hrails, hcounters, struck_frees hd hp h hstate hphase hrests hoff hclaims]
        exact ⟨rails_freeRecord hend.worked rfl, by rw [freeRecord_frame]⟩

end Sys2Proof.Proofs.RecordTimers
end

section
/-! PROOFS. The entries of the twelve tables (R1 to R9, R66, R115, R127 to R131, R146, R150, R178): each reader
accepts exactly the bytes that fit and spells from them the entry that is written; an entry so written reads back from
its own bytes as it is (O8). -/

namespace Sys2Proof.Proofs.Entries

open Sys2Proof.Machine Sys2Proof.Proofs.Reads

/-! ### Bytes numbered from 1 -/

/-- The bytes from place `i` on, numbered from 1: the first entry byte of a one-index write is its byte 1. -/
def entryByte (bs : List Byte) (i j : Nat) : Nat :=
  byteAt bs (i + j - 1)

theorem entryByte_lt (bs : List Byte) (i j : Nat) : entryByte bs i j < 256 := byteAt_lt _ _

theorem byteAt_eq_entryByte (bs : List Byte) (i j : Nat) : byteAt bs (i + j) = entryByte bs i (j + 1) :=
  congrArg (byteAt bs) (by omega)

theorem byteAt_eq_entryByte_one (bs : List Byte) (i : Nat) : byteAt bs i = entryByte bs i 1 :=
  congrArg (byteAt bs) (by omega)

theorem entryByte_params (params : List Byte) : entryByte params 1 = byteAt params := by
  funext j
  rw [entryByte, Nat.add_sub_cancel_left]

/-- A field of a list of bytes is left by the byte's own bound. -/
theorem mod_byte {b : Nat → Nat} (hlt : ∀ j, b j < 256) (j : Nat) : b j % 256 = b j := Nat.mod_eq_of_lt (hlt j)

/-- The two-byte field at place `i + j` is bytes `j + 1` and `j + 2`. -/
theorem wordAt_eq_entryByte (bs : List Byte) (i j : Nat) :
    wordAt bs (i + j) = 256 * entryByte bs i (j + 1) + entryByte bs i (j + 2) := by
  rw [wordAt, Nat.add_assoc, byteAt_eq_entryByte, byteAt_eq_entryByte, Nat.mul_comm]

theorem word_div {x y : Nat} (hy : y < 256) : (256 * x + y) / 256 = x := by omega

theorem word_mod {x y : Nat} (hy : y < 256) : (256 * x + y) % 256 = y := by omega

/-! ### RANK (R2, R4) -/

theorem rankKindOfCode_beyond {n : Nat} (h : 5 < n) : rankKindOfCode n = none := by
  unfold rankKindOfCode
  split <;> first | omega | rfl

theorem readRankEntry_eq_some_iff {bs : List Byte} {i : Nat} {e : RankEntry} : readRankEntry bs i = some e ↔
    RankBytesFit (entryByte bs i) ∧ rankWritten (entryByte bs i) = e := by
  have hlt := entryByte_lt bs i
  by_cases hcode : entryByte bs i 1 ≤ 5
  · unfold readRankEntry rankEntryAt damperBytesFit
    rw [byteAt_eq_entryByte_one]
    simp only [byteAt_eq_entryByte]
    generalize entryByte bs i = b at *
    have h8 := hlt 8
    have h9 := hlt 9
    have h13 := hlt 13
    have h14 := hlt 14
    unfold RankBytesFit rankWritten
    generalize b 1 = c at *
    interval_cases c
    all_goals simp [rankKindOfCode, rankFieldsFit, usesNotes, usesHold, usesStrike, keepIf, within]
    all_goals exact fun _ => by omega
  · refine iff_of_false ?_ fun h => hcode h.1.1
    rw [readRankEntry, byteAt_eq_entryByte_one, rankKindOfCode_beyond (by omega)]
    simp

theorem rankEntryBytes_readBack {b : Nat → Nat} (hlt : ∀ j, b j < 256) (h : RankBytesFit b) :
    RankBytesFit (entryByte (rankEntryBytes (rankWritten b)) 0)
      ∧ rankWritten (entryByte (rankEntryBytes (rankWritten b)) 0) = rankWritten b := by
  have hbyte := mod_byte hlt
  have hcode := h.1
  have hkind : b 1 = 0 ∨ b 1 = 1 ∨ b 1 = 2 ∨ b 1 = 3 ∨ b 1 = 4 ∨ b 1 = 5 := by omega
  unfold RankBytesFit at h ⊢
  rcases hkind with hk | hk | hk | hk | hk | hk
  all_goals simp only [hk] at h
  all_goals by_cases hd : b 15 = 1
  all_goals
    simp [rankWritten, rankEntryBytes, rankKindOfCode, rankKindCode, entryByte, byteAt, byte, hk, flagCode, hbyte,
      hd] at h ⊢
  all_goals omega

/-! ### STOP (R7, R8) -/

theorem stopKindOfCode_beyond {n : Nat} (h : 3 < n) : stopKindOfCode n = none := by
  unfold stopKindOfCode
  split <;> first | omega | rfl

theorem touchOfCode_eq (n : Nat) :
    touchOfCode n = if n ≤ 1 then some (if n = 1 then .second else .first) else none := by
  rcases n with _ | _ | n <;> simp [touchOfCode]

theorem breakOfCode_eq (n : Nat) :
    breakOfCode n = if n ≤ 1 then some (if n = 1 then .fold else .silent) else none := by
  rcases n with _ | _ | n <;> simp [breakOfCode]

theorem signedAt_eq (bs : List Byte) (i : Nat) : signedAt bs i = signedByte (byteAt bs i) := by
  unfold signedAt signedByte byteAt
  rw [BitVec.toInt_eq_toNat_cond]
  split <;> split <;> omega

/-- A signed byte is sent as the byte it was read from. -/
theorem toNat_ofInt_signedByte {n : Nat} (h : n < 256) : (BitVec.ofInt 8 (signedByte n)).toNat = n := by
  rw [BitVec.toNat_ofInt, signedByte]
  split <;> omega

theorem readStopEntry_eq_some_iff {bs : List Byte} {i : Nat} {e : StopEntry} : readStopEntry bs i = some e ↔
    StopBytesFit (entryByte bs i) ∧ stopWritten (entryByte bs i) = e := by
  unfold readStopEntry
  simp only [signedAt_eq, byteAt_eq_entryByte, byteAt_eq_entryByte_one bs i, touchOfCode_eq, breakOfCode_eq]
  generalize entryByte bs i = b
  by_cases hcode : b 2 ≤ 3
  · unfold StopBytesFit stopWritten
    generalize b 2 = c at *
    interval_cases c
    · simp [stopKindOfCode, StopEntry.unset]
    · by_cases ht : b 3 ≤ 1 <;> by_cases hb : b 9 ≤ 1 <;>
        simp [stopKindOfCode, within, windowFits, StopEntry.unset, ht, hb]
      exact fun _ => by tauto
    · by_cases ht : b 3 ≤ 1 <;> simp [stopKindOfCode, within, windowFits, StopEntry.unset, ht]
      exact fun _ => by omega
    · simp [stopKindOfCode, within, StopEntry.unset]
      exact fun _ => by tauto
  · refine iff_of_false ?_ fun h => hcode h.1.1
    simp [stopKindOfCode_beyond (Nat.lt_of_not_le hcode)]

theorem stopEntryBytes_readBack {b : Nat → Nat} (hlt : ∀ j, b j < 256) (h : StopBytesFit b) :
    StopBytesFit (entryByte (stopEntryBytes (stopWritten b)) 0)
      ∧ stopWritten (entryByte (stopEntryBytes (stopWritten b)) 0) = stopWritten b := by
  have hbyte := mod_byte hlt
  have hsigned (j : Nat) := toNat_ofInt_signedByte (hlt j)
  have hcode := h.1
  have hkind : b 2 = 0 ∨ b 2 = 1 ∨ b 2 = 2 ∨ b 2 = 3 := by omega
  unfold StopBytesFit at h ⊢
  rcases hkind with hk | hk | hk | hk
  all_goals simp only [hk] at h
  all_goals by_cases ht : b 3 = 1
  all_goals by_cases hb : b 9 = 1
  all_goals
    simp [stopWritten, stopEntryBytes, stopKindOfCode, stopKindCode, touchCode, breakCode, entryByte, byteAt, byte, hk,
      hbyte, ht, hb, hsigned] at h ⊢
  all_goals omega

/-! ### SLOT_MAP (R129, R130) -/

/-- The bytes of a SLOT_MAP entry at place `i`, its first numbered 2 as in a write; the position numbered 1 is 0. -/
def slotByte (bs : List Byte) (i j : Nat) : Nat :=
  if j = 1 then 0 else entryByte bs i (j - 1)

theorem slotKindOfCode_beyond {n : Nat} (h : 4 < n) : slotKindOfCode n = none := by
  unfold slotKindOfCode
  split <;> first | omega | rfl

theorem readSlotEntry_eq_some_iff {bs : List Byte} {i : Nat} {e : SlotEntry} : readSlotEntry bs i = some e ↔
    SlotBytesFit (slotByte bs i) ∧ slotWritten (slotByte bs i) = e := by
  unfold readSlotEntry SlotBytesFit slotWritten slotByte
  simp only [byteAt_eq_entryByte, byteAt_eq_entryByte_one bs i, touchOfCode_eq]
  generalize entryByte bs i = b
  by_cases hcode : b 1 ≤ 4
  · simp only [Nat.reduceSub, Nat.reduceEqDiff, if_false]
    generalize b 1 = c at *
    interval_cases c
    · simp [slotKindOfCode, SlotEntry.unset]
    · by_cases ht : b 3 ≤ 1 <;> simp [slotKindOfCode, within, ht]
      exact fun _ => by omega
    all_goals simp [slotKindOfCode, within, SlotEntry.unset]
  · refine iff_of_false ?_ fun h => hcode h.1.2.1
    simp [slotKindOfCode_beyond (Nat.lt_of_not_le hcode)]

theorem slotByte_lt (bs : List Byte) (i j : Nat) : slotByte bs i j < 256 := by
  unfold slotByte
  split
  · decide
  · exact entryByte_lt _ _ _

theorem slotEntryBytes_readBack {b : Nat → Nat} (hlt : ∀ j, b j < 256) (h : SlotBytesFit b) :
    SlotBytesFit (slotByte (slotEntryBytes (slotWritten b)) 0)
      ∧ slotWritten (slotByte (slotEntryBytes (slotWritten b)) 0) = slotWritten b := by
  have hbyte := mod_byte hlt
  have hcode := h.2.1
  have hkind : b 2 = 0 ∨ b 2 = 1 ∨ b 2 = 2 ∨ b 2 = 3 ∨ b 2 = 4 := by omega
  unfold SlotBytesFit at h ⊢
  rcases hkind with hk | hk | hk | hk | hk
  all_goals simp only [hk] at h
  all_goals by_cases ht : b 4 = 1
  all_goals
    simp [slotWritten, slotEntryBytes, slotKindOfCode, slotKindCode, touchCode, slotByte, entryByte, byteAt, byte, hk,
      hbyte, ht] at h ⊢
  all_goals omega

/-! ### RETURN_MAP (R129, R131) -/

/-- The entry a RETURN_MAP write spells from its kind and first stop bytes (R129, R131, R178). -/
def returnWritten (kind first : Nat) : ReturnEntry :=
  { kind := (returnKindOfCode kind).getD .unused, firstStop := if kind = 1 ∨ kind = 2 then first else 0 }

theorem returnKindOfCode_beyond {n : Nat} (h : 3 < n) : returnKindOfCode n = none := by
  unfold returnKindOfCode
  split <;> first | omega | rfl

theorem readReturnEntry_eq_some_iff {bs : List Byte} {i : Nat} {e : ReturnEntry} : readReturnEntry bs i = some e ↔
    byteAt bs i ≤ 3 ∧ returnWritten (byteAt bs i) (byteAt bs (i + 1)) = e := by
  unfold readReturnEntry returnWritten
  by_cases hcode : byteAt bs i ≤ 3
  · generalize byteAt bs i = c at *
    interval_cases c <;> simp [returnKindOfCode, ReturnEntry.unset]
  · refine iff_of_false ?_ fun h => hcode h.1
    simp [returnKindOfCode_beyond (Nat.lt_of_not_le hcode)]

theorem returnEntryBytes_readBack {kind first : Nat} (hkind : kind ≤ 3) (hfirst : first < 256) :
    readReturnEntry (returnEntryBytes (returnWritten kind first)) 0 = some (returnWritten kind first) := by
  interval_cases kind
  all_goals
    simp [readReturnEntry, returnEntryBytes, returnWritten, returnKindOfCode, returnKindCode, byteAt, byte,
      ReturnEntry.unset, Nat.mod_eq_of_lt hfirst]

/-! ### PORT, LINK and RAIL (R66, R67, R127, R128, R146, R147) -/

theorem flagOfCode_eq (n : Nat) : flagOfCode n = if n ≤ 1 then some (n == 1) else none := by
  rcases n with _ | _ | n <;> simp [flagOfCode]

theorem linkModeOfCode_eq (n : Nat) :
    linkModeOfCode n = if n ≤ 1 then some (if n = 1 then .onDemand else .periodic) else none := by
  rcases n with _ | _ | n <;> simp [linkModeOfCode]

theorem readPortEntry_eq_some_iff {bs : List Byte} {i : Nat} {e : PortEntry} : readPortEntry bs i = some e ↔
    PortBytesFit (entryByte bs i) ∧ portWritten (entryByte bs i) = e := by
  unfold readPortEntry PortBytesFit portWritten
  simp only [byteAt_eq_entryByte, byteAt_eq_entryByte_one bs i, wordAt_eq_entryByte, flagOfCode_eq]
  generalize entryByte bs i = b
  by_cases hflag : b 1 ≤ 1 <;> simp [hflag, within]
  exact fun _ => by omega

theorem portEntryBytes_readBack {b : Nat → Nat} (hlt : ∀ j, b j < 256) (h : PortBytesFit b) :
    PortBytesFit (entryByte (portEntryBytes (portWritten b)) 0)
      ∧ portWritten (entryByte (portEntryBytes (portWritten b)) 0) = portWritten b := by
  have hbyte := mod_byte hlt
  have hdrive := word_div (x := b 6) (hlt 7)
  unfold PortBytesFit at h ⊢
  by_cases hf : b 1 = 1
  all_goals
    simp [portWritten, portEntryBytes, flagCode, entryByte, byteAt, byte, bytes2, hf, hbyte, hdrive] at h ⊢
  all_goals omega

theorem readLinkEntry_eq_some_iff {bs : List Byte} {i : Nat} {e : LinkEntry} : readLinkEntry bs i = some e ↔
    LinkBytesFit (entryByte bs i) ∧ linkWritten (entryByte bs i) = e := by
  unfold readLinkEntry LinkBytesFit linkWritten
  simp only [byteAt_eq_entryByte, byteAt_eq_entryByte_one bs i, wordAt_eq_entryByte, flagOfCode_eq, linkModeOfCode_eq]
  generalize entryByte bs i = b
  by_cases hflag : b 1 ≤ 1 <;> by_cases hmode : b 4 ≤ 1 <;> simp [hflag, hmode, within]
  have hcode : b 4 = 0 ∨ b 4 = 1 := by omega
  rcases hcode with hm | hm <;> simp [hm, keepIf]
  all_goals exact fun _ => by omega

theorem linkEntryBytes_readBack {b : Nat → Nat} (hlt : ∀ j, b j < 256) (h : LinkBytesFit b) :
    LinkBytesFit (entryByte (linkEntryBytes (linkWritten b)) 0)
      ∧ linkWritten (entryByte (linkEntryBytes (linkWritten b)) 0) = linkWritten b := by
  have hbyte := mod_byte hlt
  have hkeep := word_div (x := b 6) (hlt 7)
  unfold LinkBytesFit at h ⊢
  by_cases hf : b 1 = 1
  all_goals by_cases hm : b 4 = 1
  all_goals
    simp [linkWritten, linkEntryBytes, flagCode, linkModeCode, entryByte, byteAt, byte, bytes2, hf, hm, hbyte,
      hkeep] at h ⊢
  all_goals omega

theorem readRailEntry_eq_some_iff {bs : List Byte} {i : Nat} {e : RailEntry} : readRailEntry bs i = some e ↔
    RailBytesFit (entryByte bs i) ∧ railWritten (entryByte bs i) = e := by
  have hlt := entryByte_lt bs i 7
  have hword : wordAt bs i = 256 * entryByte bs i 1 + entryByte bs i 2 := wordAt_eq_entryByte bs i 0
  unfold readRailEntry RailBytesFit railWritten
  simp only [byteAt_eq_entryByte, hword, wordAt_eq_entryByte]
  generalize entryByte bs i = b at *
  simp [within]
  exact fun _ => by omega

theorem railEntryBytes_readBack {b : Nat → Nat} (hlt : ∀ j, b j < 256) (h : RailBytesFit b) :
    RailBytesFit (entryByte (railEntryBytes (railWritten b)) 0)
      ∧ railWritten (entryByte (railEntryBytes (railWritten b)) 0) = railWritten b := by
  have hbyte := mod_byte hlt
  have hcapacity := word_div (x := b 1) (hlt 2)
  have hhigh := word_div (x := b 3) (hlt 4)
  have hlow := word_div (x := b 5) (hlt 6)
  unfold RailBytesFit at h ⊢
  simp [railWritten, railEntryBytes, entryByte, byteAt, byte, bytes2, hbyte, hcapacity, hhigh, hlow] at h ⊢
  omega

/-! ### MUTE (R150) -/

/-- The bytes of a MUTE write after its window, as R150 wants them. -/
def MuteBytesFit (b : Nat → Nat) : Prop :=
  256 * b 1 + b 2 ≤ 4095 ∧ 256 * b 3 + b 4 ≤ 4095 ∧ b 5 ≤ 1

/-- The entry a MUTE write spells (R150, R178). -/
def muteWritten (b : Nat → Nat) : MuteWindow :=
  { base := BitVec.ofNat 12 (256 * b 1 + b 2), mask := BitVec.ofNat 12 (256 * b 3 + b 4), enabled := b 5 == 1 }

theorem readMuteEntry_eq_some_iff {bs : List Byte} {i : Nat} {e : MuteWindow} : readMuteEntry bs i = some e ↔
    MuteBytesFit (entryByte bs i) ∧ muteWritten (entryByte bs i) = e := by
  have hword : wordAt bs i = 256 * entryByte bs i 1 + entryByte bs i 2 := wordAt_eq_entryByte bs i 0
  unfold readMuteEntry MuteBytesFit muteWritten
  simp only [byteAt_eq_entryByte, hword, wordAt_eq_entryByte, flagOfCode_eq]
  generalize entryByte bs i = b
  by_cases hflag : b 5 ≤ 1 <;> simp [hflag]

theorem muteEntryBytes_readBack {b : Nat → Nat} (hlt : ∀ j, b j < 256) (h : MuteBytesFit b) :
    MuteBytesFit (entryByte (muteEntryBytes (muteWritten b)) 0)
      ∧ muteWritten (entryByte (muteEntryBytes (muteWritten b)) 0) = muteWritten b := by
  have hbyte := mod_byte hlt
  obtain ⟨hbase, hmask, hflag⟩ := h
  have hbase12 : (256 * b 1 + b 2) % 4096 = 256 * b 1 + b 2 := by omega
  have hmask12 : (256 * b 3 + b 4) % 4096 = 256 * b 3 + b 4 := by omega
  have hbaseHigh := word_div (x := b 1) (hlt 2)
  have hmaskHigh := word_div (x := b 3) (hlt 4)
  unfold MuteBytesFit
  by_cases hf : b 5 = 1
  all_goals
    simp [muteWritten, muteEntryBytes, flagCode, entryByte, byteAt, byte, bytes2, hf, hbyte, hbase12, hmask12,
      hbaseHigh, hmaskHigh]
  all_goals omega

/-! ### EXPRESSION (R115, R116) -/

theorem portOfCode_eq (n : Nat) :
    portOfCode n = if n = 1 ∨ n = 2 then some (if n = 1 then .A else .B) else none := by
  rcases n with _ | _ | _ | n <;> simp [portOfCode]

theorem readExprEntry_eq_some_iff {bs : List Byte} {i : Nat} {e : ExprEntry} : readExprEntry bs i = some e ↔
    ExprBytesFit (entryByte bs i) ∧ exprWritten (entryByte bs i) = e := by
  unfold readExprEntry ExprBytesFit exprWritten
  simp only [byteAt_eq_entryByte, byteAt_eq_entryByte_one bs i, wordAt_eq_entryByte, flagOfCode_eq, portOfCode_eq]
  generalize entryByte bs i = b
  by_cases hflag : b 1 ≤ 1 <;> by_cases hport : b 2 = 1 ∨ b 2 = 2 <;> by_cases hdetect : b 11 ≤ 1 <;>
    simp [hflag, hport, hdetect, within]
  have htarget : b 13 = 1 ∨ b 13 = 2 ∨ (b 13 ≠ 1 ∧ b 13 ≠ 2) := by omega
  rcases htarget with ht | ht | ht
  all_goals simp [ht]
  all_goals exact and_assoc.symm.trans (and_congr_left fun _ => by omega)

theorem exprEntryBytes_readBack {b : Nat → Nat} (hlt : ∀ j, b j < 256) (h : ExprBytesFit b) :
    ExprBytesFit (entryByte (exprEntryBytes (exprWritten b)) 0)
      ∧ exprWritten (entryByte (exprEntryBytes (exprWritten b)) 0) = exprWritten b := by
  have hbyte := mod_byte hlt
  have hoffset := word_div (x := b 4) (hlt 5)
  have hlow := word_div (x := b 6) (hlt 7)
  have hhigh := word_div (x := b 8) (hlt 9)
  unfold ExprBytesFit at h ⊢
  by_cases hf : b 1 = 1 <;> by_cases hp : b 2 = 1 <;> by_cases hd : b 11 = 1 <;> by_cases ht : b 13 = 1
  all_goals
    simp [exprWritten, exprEntryBytes, flagCode, holderCode, portCode, targetCode, entryByte, byteAt, byte, bytes2, hf,
      hp, hd, ht, hbyte, hoffset, hlow, hhigh] at h ⊢
  all_goals omega

/-! ### The entry of a write with one index byte -/

theorem readRankEntry_params_iff {params : List Byte} {e : RankEntry} :
    readRankEntry params 1 = some e ↔ RankBytesFit (byteAt params) ∧ rankWritten (byteAt params) = e := by
  rw [readRankEntry_eq_some_iff, entryByte_params]

theorem readStopEntry_params_iff {params : List Byte} {e : StopEntry} :
    readStopEntry params 1 = some e ↔ StopBytesFit (byteAt params) ∧ stopWritten (byteAt params) = e := by
  rw [readStopEntry_eq_some_iff, entryByte_params]

theorem readPortEntry_params_iff {params : List Byte} {e : PortEntry} :
    readPortEntry params 1 = some e ↔ PortBytesFit (byteAt params) ∧ portWritten (byteAt params) = e := by
  rw [readPortEntry_eq_some_iff, entryByte_params]

theorem readLinkEntry_params_iff {params : List Byte} {e : LinkEntry} :
    readLinkEntry params 1 = some e ↔ LinkBytesFit (byteAt params) ∧ linkWritten (byteAt params) = e := by
  rw [readLinkEntry_eq_some_iff, entryByte_params]

theorem readRailEntry_params_iff {params : List Byte} {e : RailEntry} :
    readRailEntry params 1 = some e ↔ RailBytesFit (byteAt params) ∧ railWritten (byteAt params) = e := by
  rw [readRailEntry_eq_some_iff, entryByte_params]

theorem readMuteEntry_params_iff {params : List Byte} {e : MuteWindow} :
    readMuteEntry params 1 = some e ↔ MuteBytesFit (byteAt params) ∧ muteWritten (byteAt params) = e := by
  rw [readMuteEntry_eq_some_iff, entryByte_params]

theorem readExprEntry_params_iff {params : List Byte} {e : ExprEntry} :
    readExprEntry params 1 = some e ↔ ExprBytesFit (byteAt params) ∧ exprWritten (byteAt params) = e := by
  rw [readExprEntry_eq_some_iff, entryByte_params]

/-! ### Stop sets and holders (R82, R178) -/

/-- Byte `j` of a stop set is its bits from `8 j` on (R178). -/
theorem getD_stopSetBytes (x : StopSet) {j : Nat} (hj : j < 32) :
    (stopSetBytes x).getD j 0 = x.extractLsb' (8 * j) 8 := by
  simp [stopSetBytes, hj]

theorem stopSetAt_stopSetBytes (x : StopSet) : stopSetAt (stopSetBytes x) 0 = x := by
  refine BitVec.eq_of_getLsbD_eq fun n hn => ?_
  have hbyte := getD_stopSetBytes x (j := n / 8) (by omega)
  rw [stopSetAt, getLsbD_bitsOf, Nat.zero_add, hbyte, BitVec.getLsbD_extractLsb', Nat.div_add_mod]
  simp [hn, Nat.mod_lt n (by decide : 0 < 8)]

theorem holderOfCode_eq_some_iff {n : Nat} {q : Option PortId} : holderOfCode n = some q ↔ n = holderCode q := by
  constructor
  · rcases n with _ | _ | _ | n
    all_goals simp [holderOfCode, portOfCode]
    all_goals rintro rfl
    all_goals rfl
  · rintro rfl
    rcases q with _ | _ | _ <;> rfl

theorem holderCode_lt (q : Option PortId) : holderCode q < 256 := by
  rcases q with _ | _ | _ <;> decide

theorem holderOfCode_readBack (q : Option PortId) : holderOfCode (byteAt [byte (holderCode q)] 0) = some q := by
  rw [holderOfCode_eq_some_iff, byteAt_byte (holderCode_lt q)]

/-! ### O8 -/

/-- Settles O8: the entry that was read is spelt by bytes that fit, and its own bytes fit and spell it again. -/
theorem entriesReadBackAsStored : Obligations.EntriesReadBackAsStored := by
  unfold Obligations.EntriesReadBackAsStored
  intro bs i
  have hlt := entryByte_lt bs i
  refine ⟨?_, ?_, ?_, ?_, ?_, ?_, ?_, ?_, ?_, ?_, stopSetAt_stopSetBytes _⟩
  · intro e h
    obtain ⟨hfit, rfl⟩ := readRankEntry_eq_some_iff.1 h
    exact readRankEntry_eq_some_iff.2 (rankEntryBytes_readBack hlt hfit)
  · intro e h
    obtain ⟨hfit, rfl⟩ := readStopEntry_eq_some_iff.1 h
    exact readStopEntry_eq_some_iff.2 (stopEntryBytes_readBack hlt hfit)
  · intro e h
    obtain ⟨hfit, rfl⟩ := readSlotEntry_eq_some_iff.1 h
    exact readSlotEntry_eq_some_iff.2 (slotEntryBytes_readBack (slotByte_lt bs i) hfit)
  · intro e h
    obtain ⟨hfit, rfl⟩ := readReturnEntry_eq_some_iff.1 h
    exact returnEntryBytes_readBack hfit (byteAt_lt _ _)
  · intro e h
    obtain ⟨hfit, rfl⟩ := readPortEntry_eq_some_iff.1 h
    exact readPortEntry_eq_some_iff.2 (portEntryBytes_readBack hlt hfit)
  · intro e h
    obtain ⟨hfit, rfl⟩ := readLinkEntry_eq_some_iff.1 h
    exact readLinkEntry_eq_some_iff.2 (linkEntryBytes_readBack hlt hfit)
  · intro e h
    obtain ⟨hfit, rfl⟩ := readRailEntry_eq_some_iff.1 h
    exact readRailEntry_eq_some_iff.2 (railEntryBytes_readBack hlt hfit)
  · intro e h
    obtain ⟨hfit, rfl⟩ := readExprEntry_eq_some_iff.1 h
    exact readExprEntry_eq_some_iff.2 (exprEntryBytes_readBack hlt hfit)
  · intro w h
    obtain ⟨hfit, rfl⟩ := readMuteEntry_eq_some_iff.1 h
    exact readMuteEntry_eq_some_iff.2 (muteEntryBytes_readBack hlt hfit)
  · intro q h
    exact ⟨holderOfCode_readBack q, (holderOfCode_eq_some_iff.1 h).symm⟩

end Sys2Proof.Proofs.Entries
end

section
/-! PROOFS. The reads and writes of the tables that store an entry and do nothing else: TABLE_READ (O7), the five tables
of CONFIG (O11), COMBINATION and MUTE (O13), and the reads of the sounding table (O21). -/

namespace Sys2Proof.Proofs.Tables

open Sys2Proof.Machine Sys2Proof.Proofs.ServicePort Sys2Proof.Proofs.Reads Sys2Proof.Proofs.Entries
open Sys2Proof.Proofs.Claims

/-! ### TABLE_READ (O7) -/
section TableRead

variable {s : State} (hfree : PortFree s)
include hfree

/-- A read with one index byte. -/
theorem exec_tableRead_one {t : Byte} {i : Nat} (hi : i < 256) (ht : indexLength t.toNat = 1) {entry : List Byte}
    (h : readEntry (idleFill s) t.toNat i 0 = okWith entry) :
    exec (.tableRead [t, byte i]) s = .next (answered s .ok entry) := by
  refine exec_answers rfl hfree rfl rfl ?_
  change tableReadWork [t, byte i] (idleFill s) = _
  have hlength : ¬ [t, byte i].length ≠ 1 + indexLength (byteAt [t, byte i] 0) := by
    rw [not_not]
    exact congrArg (1 + ·) ht.symm
  have hindex : byteAt [t, byte i] 1 = i := toNat_byte hi
  rw [tableReadWork, if_neg hlength, hindex]
  exact congrArg (Prod.mk _) h

/-- A read with two index bytes. -/
theorem exec_tableRead_two {t : Byte} {i j : Nat} (hi : i < 256) (hj : j < 256) (ht : indexLength t.toNat = 2)
    {entry : List Byte} (h : readEntry (idleFill s) t.toNat i j = okWith entry) :
    exec (.tableRead [t, byte i, byte j]) s = .next (answered s .ok entry) := by
  refine exec_answers rfl hfree rfl rfl ?_
  change tableReadWork [t, byte i, byte j] (idleFill s) = _
  have hlength : ¬ [t, byte i, byte j].length ≠ 1 + indexLength (byteAt [t, byte i, byte j] 0) := by
    rw [not_not]
    exact congrArg (1 + ·) ht.symm
  have hi' : byteAt [t, byte i, byte j] 1 = i := toNat_byte hi
  have hj' : byteAt [t, byte i, byte j] 2 = j := toNat_byte hj
  rw [tableReadWork, if_neg hlength, hi', hj']
  exact congrArg (Prod.mk _) h

/-- A read refused: its length is not that of its table, or the table has no such entry. -/
theorem exec_tableRead_range {params : List Byte} (h : params.length = 1 + indexLength (byteAt params 0) →
      readEntry (idleFill s) (byteAt params 0) (byteAt params 1) (byteAt params 2) = withStatus .range) :
    exec (.tableRead params) s = .next (answered s .range []) := by
  refine exec_refuses rfl hfree rfl rfl ?_
  change tableReadWork params (idleFill s) = _
  rw [tableReadWork]
  split
  · rfl
  · next hlength => rw [h (not_not.1 hlength)]; rfl

end TableRead

theorem portAnswer_of_portCode (s : State) (p : PortId) {n m : Nat} (h : n ≤ m) (entry : ConsolePort → List Byte) :
    portAnswer s (portCode p) (within 0 m n) entry = okWith (entry (portAt s p)) := by
  rw [within_of_le h, portAnswer_of_code]

theorem portAnswer_beyond (s : State) {code n m : Nat} (h : (code ≠ 1 ∧ code ≠ 2) ∨ m < n)
    (entry : ConsolePort → List Byte) : portAnswer s code (within 0 m n) entry = withStatus .range := by
  unfold portAnswer
  split
  · rfl
  · next p hp =>
    have hn : m < n := h.resolve_left fun hcode => by rw [portOfCode_eq_none_iff.mpr hcode] at hp; cases hp
    exact entry_beyond hn _

/-- A code above 11 names no table. -/
theorem readEntry_of_no_table (s : State) {table : Nat} (h : 11 < table) (i j : Nat) :
    readEntry s table i j = withStatus .range := by
  unfold readEntry
  split <;> first | omega | rfl

/-- Settles O7: each table's read by its index, in the table or beyond it. -/
theorem tableReadAnswersStoredEntry : Obligations.TableReadAnswersStoredEntry := by
  unfold Obligations.TableReadAnswersStoredEntry
  intro s hfree
  refine ⟨?_, ?_, ?_, ?_, ?_, ?_, ?_, ?_, ?_, ?_, ?_, ?_, ?_, ?_⟩
  · exact fun r hr => exec_tableRead_one hfree (by omega) rfl (entry_of_within (by omega) _)
  · exact fun n hn => exec_tableRead_one hfree (by omega) rfl (entry_of_within (by omega) _)
  · intro p i hi
    have h := exec_tableRead_two (t := 2) hfree (portCode_lt p) (j := i) (by omega) rfl
      (portAnswer_of_portCode (idleFill s) p (m := 63) (by omega) fun c => slotEntryBytes (slotAt c i))
    cases p <;> exact h
  · intro p i hi
    have h := exec_tableRead_two (t := 3) hfree (portCode_lt p) (j := i) (by omega) rfl
      (portAnswer_of_portCode (idleFill s) p (m := 31) (by omega) fun c => returnEntryBytes (returnAt c i))
    cases p <;> exact h
  · intro p
    have h := exec_tableRead_one (t := 4) hfree (portCode_lt p) rfl
      (portAnswer_of_code (idleFill s) p fun c => portEntryBytes c.entry)
    cases p <;> exact h
  · exact fun l hl => exec_tableRead_one hfree (by omega) rfl (entry_of_within (by omega) _)
  · exact fun k hk => exec_tableRead_one hfree (by omega) rfl (entry_of_within (by omega) _)
  · exact fun d hd => exec_tableRead_one hfree (by omega) rfl (entry_of_within (by omega) _)
  · intro v c hv hc
    refine exec_tableRead_two hfree (by omega) (by omega) rfl ?_
    change entryAnswer (within 0 15 v && within 0 39 c) _ = _
    rw [within_of_le (by omega), Bool.true_and, entry_of_within (by omega)]
    rfl
  · intro n hn hn'
    refine exec_tableRead_one hfree (by omega) rfl ?_
    change entryAnswer (decide (1 ≤ n) && decide (n ≤ 15)) _ = _
    rw [decide_eq_true hn, decide_eq_true (by omega : n ≤ 15)]
    rfl
  · exact fun e he => exec_tableRead_one hfree (by omega) rfl (entry_of_within (by omega) _)
  · intro w hw
    refine exec_tableRead_one hfree (by omega) rfl ((entry_of_within (by omega) _).trans ?_)
    rw [look_lt _ _ hw]
    rfl
  · intro r hr hr'
    refine exec_tableRead_range hfree fun _ => ?_
    have hindex : byteAt [0, byte r] 1 = r := toNat_byte hr'
    rw [hindex]
    exact entry_beyond hr _
  · intro params table i j h
    refine exec_tableRead_range hfree fun hlength => ?_
    have hlength' : ¬ params.length ≠ (if table = 2 ∨ table = 3 ∨ table = 8 then 3 else 2) := by
      rw [not_not, hlength, indexLength]
      split <;> rfl
    have hread (n : Nat) (ht : table = n) (hn : readEntry (idleFill s) n i j = withStatus .range) :
        readEntry (idleFill s) table i j = withStatus .range := ht ▸ hn
    rcases h.resolve_left hlength' with
      h | ⟨ht, h⟩ | ⟨ht, h⟩ | ⟨ht, h⟩ | ⟨ht, h⟩ | ⟨ht, h⟩ | ⟨ht, h⟩ | ⟨ht, h⟩
        | ⟨ht, h⟩ | ⟨ht, h⟩ | ⟨ht, h⟩ | ⟨ht, h⟩
    · exact readEntry_of_no_table _ h i j
    · exact hread 0 ht (entry_beyond h _)
    · exact hread 2 ht (portAnswer_beyond (idleFill s) h fun c => slotEntryBytes (slotAt c j))
    · exact hread 3 ht (portAnswer_beyond (idleFill s) h fun c => returnEntryBytes (returnAt c j))
    · exact hread 4 ht (portAnswer_beyond (n := 0) (m := 0) (idleFill s) (.inl h) fun c => portEntryBytes c.entry)
    · exact hread 5 ht (entry_beyond h _)
    · exact hread 6 ht (entry_beyond h _)
    · exact hread 7 ht (entry_beyond h _)
    · refine hread 8 ht ?_
      change entryAnswer (within 0 15 i && within 0 39 j) _ = _
      rcases h with h | h
      · rw [within_eq_false h]
        rfl
      · rw [within_eq_false h, Bool.and_false]
        rfl
    · refine hread 9 ht ?_
      change entryAnswer (decide (1 ≤ i) && decide (i ≤ 15)) _ = _
      rcases h with h | h
      · rw [h]
        rfl
      · rw [decide_eq_false (by omega : ¬ i ≤ 15), Bool.and_false]
        rfl
    · exact hread 10 ht (entry_beyond h _)
    · exact hread 11 ht (entry_beyond h _)

/-! ### The five tables of CONFIG (O11) -/

theorem slotBytesFit_iff {params : List Byte} :
    SlotBytesFit (byteAt params) ↔ byteAt params 1 ≤ 63 ∧ SlotBytesFit (slotByte params 2) := by
  simp [SlotBytesFit, slotByte, entryByte]

theorem slotWritten_slotByte (params : List Byte) : slotWritten (slotByte params 2) = slotWritten (byteAt params) := by
  simp [slotWritten, slotByte, entryByte]

section ConfigTables

variable {params : List Byte} {s : State} (hfree : PortFree s) (hconfig : takenInConfig s.mode = true)
include hfree hconfig

theorem exec_tableWriteSlotMap (hlength : params.length = 7) {p : PortId} (hp : byteAt params 0 = portCode p)
    (hfit : SlotBytesFit (byteAt params)) :
    exec (.tableWriteSlotMap params) s = .next (setPort (answered s .ok []) p
      { portAt s p with slotMap := put (portAt s p).slotMap (byteAt params 1) (slotWritten (byteAt params)) }) := by
  obtain ⟨hpos, hentry⟩ := slotBytesFit_iff.1 hfit
  have hread := readSlotEntry_eq_some_iff.2 ⟨hentry, slotWritten_slotByte params⟩
  rw [exec_worked rfl hfree hconfig hlength]
  change Host.Outcome.next (respond (writeSlotMapWork params (idleFill s))) = _
  rw [writeSlotMapWork, hp, portOfCode_portCode, hread]
  dsimp only
  rw [if_neg (Nat.not_lt.2 hpos)]
  cases p <;> rfl

theorem exec_tableWriteSlotMap_range (hlength : params.length = 7)
    (h : (byteAt params 0 ≠ 1 ∧ byteAt params 0 ≠ 2) ∨ ¬ SlotBytesFit (byteAt params)) :
    exec (.tableWriteSlotMap params) s = .next (answered s .range []) := by
  refine exec_refuses rfl hfree hconfig hlength ?_
  change writeSlotMapWork params (idleFill s) = _
  unfold writeSlotMapWork
  split
  · next p e hp he =>
    have hfit : ¬ SlotBytesFit (byteAt params) := h.resolve_left fun hcode => by
      rw [portOfCode_eq_none_iff.mpr hcode] at hp; cases hp
    rw [if_pos]
    by_contra hpos
    exact hfit (slotBytesFit_iff.2 ⟨Nat.not_lt.1 hpos, (readSlotEntry_eq_some_iff.1 he).1⟩)
  · rfl

theorem exec_tableWriteReturnMap (hlength : params.length = 4) {p : PortId} (hp : byteAt params 0 = portCode p)
    (hpos : byteAt params 1 ≤ 31) (hkind : byteAt params 2 ≤ 3) :
    exec (.tableWriteReturnMap params) s = .next (setPort (answered s .ok []) p
      { portAt s p with
        returnMap := put (portAt s p).returnMap (byteAt params 1)
          (returnWritten (byteAt params 2) (byteAt params 3)) }) := by
  have hread := readReturnEntry_eq_some_iff.2 ⟨hkind, rfl⟩
  rw [exec_worked rfl hfree hconfig hlength]
  change Host.Outcome.next (respond (writeReturnMapWork params (idleFill s))) = _
  rw [writeReturnMapWork, hp, portOfCode_portCode, hread]
  dsimp only
  rw [if_neg (Nat.not_lt.2 hpos)]
  cases p <;> rfl

theorem exec_tableWriteReturnMap_range (hlength : params.length = 4)
    (h : (byteAt params 0 ≠ 1 ∧ byteAt params 0 ≠ 2) ∨ 31 < byteAt params 1 ∨ 3 < byteAt params 2) :
    exec (.tableWriteReturnMap params) s = .next (answered s .range []) := by
  refine exec_refuses rfl hfree hconfig hlength ?_
  change writeReturnMapWork params (idleFill s) = _
  unfold writeReturnMapWork
  split
  · next p e hp he =>
    have hpos := h.resolve_left fun hcode => by rw [portOfCode_eq_none_iff.mpr hcode] at hp; cases hp
    exact if_pos (hpos.resolve_right (Nat.not_lt.2 (readReturnEntry_eq_some_iff.1 he).1))
  · rfl

theorem exec_tableWritePort (hlength : params.length = 8) {p : PortId} (hp : byteAt params 0 = portCode p)
    (hfit : PortBytesFit (byteAt params)) :
    exec (.tableWritePort params) s = .next (setPort (answered s .ok []) p
      { portAt s p with entry := portWritten (byteAt params) }) := by
  have hread := readPortEntry_params_iff.2 ⟨hfit, rfl⟩
  rw [exec_worked rfl hfree hconfig hlength]
  change Host.Outcome.next (respond (writePortWork params (idleFill s))) = _
  rw [writePortWork, hp, portOfCode_portCode, hread]
  cases p <;> rfl

theorem exec_tableWritePort_range (hlength : params.length = 8)
    (h : (byteAt params 0 ≠ 1 ∧ byteAt params 0 ≠ 2) ∨ ¬ PortBytesFit (byteAt params)) :
    exec (.tableWritePort params) s = .next (answered s .range []) := by
  refine exec_refuses rfl hfree hconfig hlength ?_
  change writePortWork params (idleFill s) = _
  unfold writePortWork
  split
  · next p e hp he =>
    have hfit := (readPortEntry_params_iff.1 he).1
    refine absurd hfit (h.resolve_left fun hcode => ?_)
    rw [portOfCode_eq_none_iff.mpr hcode] at hp
    cases hp
  · rfl

theorem exec_tableWriteLink (hlength : params.length = 9) (hl : byteAt params 0 ≤ 3)
    (hfit : LinkBytesFit (byteAt params)) :
    exec (.tableWriteLink params) s = .next { answered s .ok [] with
      links := put s.links (byteAt params 0)
        { linkAt s (byteAt params 0) with entry := linkWritten (byteAt params) } } := by
  have hread := readLinkEntry_params_iff.2 ⟨hfit, rfl⟩
  rw [exec_worked rfl hfree hconfig hlength]
  change Host.Outcome.next (respond (writeLinkWork params (idleFill s))) = _
  rw [writeLinkWork, hread]
  dsimp only
  rw [if_neg (Nat.not_lt.2 hl)]
  rfl

theorem exec_tableWriteLink_range (hlength : params.length = 9)
    (h : 3 < byteAt params 0 ∨ ¬ LinkBytesFit (byteAt params)) :
    exec (.tableWriteLink params) s = .next (answered s .range []) := by
  refine exec_refuses rfl hfree hconfig hlength ?_
  change writeLinkWork params (idleFill s) = _
  unfold writeLinkWork
  dsimp only
  split
  · rfl
  · next e he =>
    have hfit := (readLinkEntry_params_iff.1 he).1
    exact if_pos (h.resolve_right (not_not.2 hfit))

theorem exec_tableWriteRail (hlength : params.length = 8) (hk : byteAt params 0 ≤ 3)
    (hfit : RailBytesFit (byteAt params)) :
    exec (.tableWriteRail params) s = .next { answered s .ok [] with
      rails := put s.rails (byteAt params 0)
        { railAt s (byteAt params 0) with entry := railWritten (byteAt params) } } := by
  have hread := readRailEntry_params_iff.2 ⟨hfit, rfl⟩
  rw [exec_worked rfl hfree hconfig hlength]
  change Host.Outcome.next (respond (writeRailWork params (idleFill s))) = _
  rw [writeRailWork, hread]
  dsimp only
  rw [if_neg (Nat.not_lt.2 hk)]
  rfl

theorem exec_tableWriteRail_range (hlength : params.length = 8)
    (h : 3 < byteAt params 0 ∨ ¬ RailBytesFit (byteAt params)) :
    exec (.tableWriteRail params) s = .next (answered s .range []) := by
  refine exec_refuses rfl hfree hconfig hlength ?_
  change writeRailWork params (idleFill s) = _
  unfold writeRailWork
  dsimp only
  split
  · rfl
  · next e he =>
    have hfit := (readRailEntry_params_iff.1 he).1
    exact if_pos (h.resolve_right (not_not.2 hfit))

end ConfigTables

/-- Settles O11. -/
theorem configTablesStoreEntries : Obligations.ConfigTablesStoreEntries := by
  unfold Obligations.ConfigTablesStoreEntries
  intro params s hfree hmode
  have hconfig : takenInConfig s.mode = true := by rw [hmode]; rfl
  exact
    ⟨fun hlength => ⟨fun _ hp => exec_tableWriteSlotMap hfree hconfig hlength hp,
      exec_tableWriteSlotMap_range hfree hconfig hlength⟩,
    fun hlength => ⟨fun _ hp => exec_tableWriteReturnMap hfree hconfig hlength hp,
      exec_tableWriteReturnMap_range hfree hconfig hlength⟩,
    fun hlength => ⟨fun _ hp => exec_tableWritePort hfree hconfig hlength hp,
      exec_tableWritePort_range hfree hconfig hlength⟩,
    fun hlength => ⟨exec_tableWriteLink hfree hconfig hlength, exec_tableWriteLink_range hfree hconfig hlength⟩,
    fun hlength => ⟨exec_tableWriteRail hfree hconfig hlength, exec_tableWriteRail_range hfree hconfig hlength⟩⟩

/-! ### COMBINATION and MUTE (O13) -/

theorem getLsbD_storable (s : State) {n : Nat} (hn : n < 256) :
    (storable s).getLsbD n = ((stopAt s n).kind != .unused && (stopAt s n).division != 5) := by
  rw [storable, getLsbD_bitsOf]
  simp [hn]

theorem getLsbD_stopsOf (s : State) (d : Nat) {n : Nat} (hn : n < 256) :
    (stopsOf s d).getLsbD n = ((stopAt s n).kind != .unused && (stopAt s n).division == d) := by
  rw [stopsOf, getLsbD_bitsOf]
  simp [hn]

/-- The stops a combination record of a code may hold (R112). -/
def recordScope (s : State) (code : Nat) : StopSet :=
  if code ≤ 9 then storable s else storable s &&& stopsOf s ((code - 10) / 6)

theorem getLsbD_recordScope (s : State) (code : Nat) {n : Nat} (hn : n < 256) :
    (recordScope s code).getLsbD n = ((stopAt s n).kind != .unused && (stopAt s n).division != 5
      && (decide (code ≤ 9) || (stopAt s n).division == (code - 10) / 6)) := by
  unfold recordScope
  split
  · next h => rw [getLsbD_storable s hn, decide_eq_true h, Bool.true_or, Bool.and_true]
  · next h =>
    rw [BitVec.getLsbD_and, getLsbD_storable s hn, getLsbD_stopsOf s _ hn, decide_eq_false h, Bool.false_or]
    cases (stopAt s n).kind != .unused <;> simp

section PlayingTables

variable {params : List Byte} {s : State} (hfree : PortFree s) (htaken : takenPlaying s.mode = true)
include hfree htaken

theorem exec_tableWriteCombination_range (hlength : params.length = 34)
    (h : 15 < byteAt params 0 ∨ 39 < byteAt params 1) :
    exec (.tableWriteCombination params) s = .next (answered s .range []) :=
  exec_refuses rfl hfree htaken hlength (if_pos h)

theorem exec_tableWriteCombination (hlength : params.length = 34)
    (h : ¬ (15 < byteAt params 0 ∨ 39 < byteAt params 1)) :
    exec (.tableWriteCombination params) s = .next { answered s .ok [] with
      combination := put s.combination (40 * byteAt params 0 + byteAt params 1)
        (stopSetAt params 2 &&& recordScope s (byteAt params 1)) } := by
  rw [exec_worked rfl hfree htaken hlength]
  change Host.Outcome.next (respond (writeCombinationWork params (idleFill s))) = _
  rw [writeCombinationWork]
  dsimp only
  rw [if_neg h]
  rfl

theorem exec_tableWriteMute_range (hlength : params.length = 6)
    (h : 7 < byteAt params 0 ∨ 4095 < wordAt params 1 ∨ 4095 < wordAt params 3 ∨ 1 < byteAt params 5) :
    exec (.tableWriteMute params) s = .next (answered s .range []) := by
  refine exec_refuses rfl hfree htaken hlength ?_
  change writeMuteWork params (idleFill s) = _
  unfold writeMuteWork
  dsimp only
  split
  · rfl
  · next e he =>
    obtain ⟨hbase, hmask, hflag⟩ := (readMuteEntry_params_iff.1 he).1
    refine if_pos (h.resolve_right ?_)
    simp only [wordAt, Nat.reduceAdd]
    omega

theorem exec_tableWriteMute (hlength : params.length = 6) (hn : byteAt params 0 ≤ 7)
    (hbase : wordAt params 1 ≤ 4095)
    (hmask : wordAt params 3 ≤ 4095) (hflag : byteAt params 5 ≤ 1) :
    exec (.tableWriteMute params) s = .next { answered s .ok [] with
      mutes := put s.mutes (byteAt params 0)
        { base := BitVec.ofNat 12 (wordAt params 1), mask := BitVec.ofNat 12 (wordAt params 3)
          enabled := byteAt params 5 == 1 } } := by
  have hread : readMuteEntry params 1 = some
      { base := BitVec.ofNat 12 (wordAt params 1), mask := BitVec.ofNat 12 (wordAt params 3)
        enabled := byteAt params 5 == 1 } := by
    rw [readMuteEntry, flagOfCode_eq, if_pos hflag]
    exact if_pos ⟨hbase, hmask⟩
  rw [exec_worked rfl hfree htaken hlength]
  change Host.Outcome.next (respond (writeMuteWork params (idleFill s))) = _
  rw [writeMuteWork, hread]
  dsimp only
  rw [if_neg (Nat.not_lt.2 hn)]
  rfl

end PlayingTables

/-- Settles O13. -/
theorem combinationAndMuteWritesStore : Obligations.CombinationAndMuteWritesStore := by
  unfold Obligations.CombinationAndMuteWritesStore
  refine ⟨fun params s hlength hfree hmode => ?_, fun params s hlength hfree hmode => ?_⟩
  · have htaken := takenPlaying_of_ne hmode
    refine ⟨exec_tableWriteCombination_range hfree htaken hlength, fun hlevel hcode => ?_⟩
    refine ⟨_, exec_tableWriteCombination hfree htaken hlength (by omega), fun n hn => ?_⟩
    rw [BitVec.getLsbD_and, getLsbD_recordScope s _ hn]
    simp only [Bool.and_assoc]
  · have htaken := takenPlaying_of_ne hmode
    exact ⟨exec_tableWriteMute_range hfree htaken hlength, exec_tableWriteMute hfree htaken hlength⟩

/-! ### LOOKUP and NEXT_RECORD (O21) -/

theorem namedRecord_found {s : State} {rank pipe i : Nat} {r : Record} (hrank : rank ≤ 63) (hpipe : pipe ≤ 96)
    (hi : findRecord s rank pipe = some i) (hr : recordAt s i = some r) : namedRecord s rank pipe = .ok (i, r) := by
  rw [namedRecord, if_neg (by omega), hi]
  dsimp only
  rw [hr]

theorem namedRecord_notFound {s : State} {rank pipe : Nat} (hrank : rank ≤ 63) (hpipe : pipe ≤ 96)
    (h : findRecord s rank pipe = none) : namedRecord s rank pipe = .error .notFound := by
  rw [namedRecord, if_neg (by omega), h]

theorem namedRecord_range {s : State} {rank pipe : Nat} (h : 63 < rank ∨ 96 < pipe) :
    namedRecord s rank pipe = .error .range := if_pos h

section Records

variable {s : State} (hfree : PortFree s)
include hfree

theorem exec_lookup {params : List Byte} (hlength : params.length = 2) {i : Nat} {r : Record}
    (h : namedRecord s (byteAt params 0) (byteAt params 1) = .ok (i, r)) :
    exec (.lookup params) s = .next (answered s .ok (recordBytes i r)) := by
  refine exec_answers rfl hfree rfl hlength ?_
  change lookupWork params (idleFill s) = _
  have hnamed : namedRecord (idleFill s) (byteAt params 0) (byteAt params 1) = .ok (i, r) := h
  rw [lookupWork, hnamed]
  rfl

theorem exec_lookup_error {params : List Byte} (hlength : params.length = 2) {st : Status}
    (h : namedRecord s (byteAt params 0) (byteAt params 1) = .error st) :
    exec (.lookup params) s = .next (answered s st []) := by
  refine exec_refuses rfl hfree rfl hlength ?_
  change lookupWork params (idleFill s) = _
  have hnamed : namedRecord (idleFill s) (byteAt params 0) (byteAt params 1) = .error st := h
  rw [lookupWork, hnamed]

theorem exec_nextRecord {params : List Byte} (hlength : params.length = 2) (hword : wordAt params 0 ≤ 447) {i : Nat}
    {r : Record} (hfind : ((occupied s).find? fun i => decide (wordAt params 0 ≤ i)) = some i)
    (hr : recordAt s i = some r) : exec (.nextRecord params) s = .next (answered s .ok (recordBytes i r)) := by
  refine exec_answers rfl hfree rfl hlength ?_
  change nextRecordWork params (idleFill s) = _
  have hfind' : ((occupied (idleFill s)).find? fun i => decide (wordAt params 0 ≤ i)) = some i := hfind
  have hr' : recordAt (idleFill s) i = some r := hr
  rw [nextRecordWork, if_neg (Nat.not_lt.2 hword), hfind']
  dsimp only
  rw [hr']
  rfl

theorem exec_nextRecord_notFound {params : List Byte} (hlength : params.length = 2) (hword : wordAt params 0 ≤ 447)
    (hfind : ((occupied s).find? fun i => decide (wordAt params 0 ≤ i)) = none) :
    exec (.nextRecord params) s = .next (answered s .notFound []) := by
  refine exec_refuses rfl hfree rfl hlength ?_
  change nextRecordWork params (idleFill s) = _
  have hfind' : ((occupied (idleFill s)).find? fun i => decide (wordAt params 0 ≤ i)) = none := hfind
  rw [nextRecordWork, if_neg (Nat.not_lt.2 hword), hfind']

theorem exec_nextRecord_range {params : List Byte} (hlength : params.length = 2) (hword : 447 < wordAt params 0) :
    exec (.nextRecord params) s = .next (answered s .range []) :=
  exec_refuses rfl hfree rfl hlength (if_pos hword)

end Records

/-- The indices in use ascend, so the search finds the first at or above the number it starts from. -/
theorem find_occupied {s : State} {j i : Nat} {r : Record} (hji : j ≤ i) (hr : recordAt s i = some r)
    (hfirst : ∀ k, j ≤ k → k < i → recordAt s k = none) :
    ((occupied s).find? fun i => decide (j ≤ i)) = some i := by
  obtain ⟨before, after, hsplit⟩ := List.append_of_mem ((mem_occupied s i).2 ⟨r, hr⟩)
  refine List.find?_eq_some_iff_append.2 ⟨decide_eq_true hji, before, after, hsplit, fun k hk => ?_⟩
  have hlt : k < i := by
    have hsorted := pairwise_occupied s
    rw [hsplit] at hsorted
    exact (List.pairwise_append.1 hsorted).2.2 k hk i (List.mem_cons_self ..)
  obtain ⟨x, hx⟩ := (mem_occupied s k).1 (hsplit ▸ List.mem_append_left _ hk)
  rw [Bool.not_eq_true', decide_eq_false_iff_not]
  intro hjk
  rw [hfirst k hjk hlt] at hx
  cases hx

theorem find_occupied_none {s : State} {j : Nat} (h : ∀ k, j ≤ k → recordAt s k = none) :
    ((occupied s).find? fun i => decide (j ≤ i)) = none := by
  refine List.find?_eq_none.2 fun k hk => ?_
  obtain ⟨x, hx⟩ := (mem_occupied s k).1 hk
  rw [decide_eq_true_eq]
  intro hjk
  rw [h k hjk] at hx
  cases hx

theorem wordAt_bytes2 {n : Nat} (h : n < 65536) : wordAt (bytes2 n) 0 = n := by
  have hhigh : byteAt (bytes2 n) 0 = n / 256 := toNat_byte (by omega)
  have hlow : byteAt (bytes2 n) (0 + 1) = n % 256 := by
    change (byte n).toNat = _
    rw [byte, BitVec.toNat_ofNat]
  rw [wordAt, hhigh, hlow]
  omega

theorem byteAt_pair_zero {a : Nat} (ha : a < 256) (b : Nat) : byteAt [byte a, byte b] 0 = a := toNat_byte ha

theorem byteAt_pair_one (a : Nat) {b : Nat} (hb : b < 256) : byteAt [byte a, byte b] 1 = b := toNat_byte hb

/-- Settles O21. -/
theorem recordsAreFoundAndReturnedWhole : Obligations.RecordsAreFoundAndReturnedWhole := by
  unfold Obligations.RecordsAreFoundAndReturnedWhole
  intro s hfree recordOf
  refine ⟨?_, ?_, ?_, ?_, ?_, ?_⟩
  · intro rank pipe i r hrank hpipe hr hrank' hpipe' hone
    refine exec_lookup hfree rfl ?_
    rw [byteAt_pair_zero (by omega), byteAt_pair_one _ (by omega)]
    refine namedRecord_found hrank hpipe ?_ hr
    rw [← hrank', ← hpipe', findRecord_eq_some hone hr]
  · intro rank pipe hrank hpipe hnone
    refine exec_lookup_error hfree rfl ?_
    rw [byteAt_pair_zero (by omega), byteAt_pair_one _ (by omega)]
    exact namedRecord_notFound hrank hpipe (findRecord_eq_none_iff.2 hnone)
  · intro j i r hji hr hfirst
    have hi := recordAt_lt hr
    have hword := wordAt_bytes2 (n := j) (by omega)
    exact exec_nextRecord hfree rfl (by omega) (by rw [hword]; exact find_occupied hji hr hfirst) hr
  · intro j hj hnone
    have hword := wordAt_bytes2 (n := j) (by omega)
    exact exec_nextRecord_notFound hfree rfl (by omega) (by rw [hword]; exact find_occupied_none hnone)
  · intro rank pipe hrank hpipe h
    refine exec_lookup_error hfree rfl ?_
    rw [byteAt_pair_zero hrank, byteAt_pair_one _ hpipe]
    exact namedRecord_range h
  · intro j hj hj'
    exact exec_nextRecord_range hfree rfl (by rw [wordAt_bytes2 hj']; exact hj)

end Sys2Proof.Proofs.Tables
end

section
/-! PROOFS. The release requests of the host (R27, R28, R33, R43, R44, R73): what a release taken whole leaves of each
record, of the flags and of all else; and ALL_CLEAR and SILENCE from it (O20). -/

namespace Sys2Proof.Proofs.Releases

open Sys2Proof.Machine Sys2Proof.Proofs.ServicePort Sys2Proof.Proofs.Reads Sys2Proof.Proofs.Steps
open Sys2Proof.Proofs.Claims Sys2Proof.Proofs.PortLoss Sys2Proof.Proofs.Registration Sys2Proof.Proofs.RecordTimers
open Sys2Proof.Proofs.Tables

/-! ### What a release leaves of the flags and of all else -/

theorem sameFlags_lastRelease (s : State) (i : Nat) (r : Record) : SameFlags s (lastRelease s i r) := by
  have freed (u : State) : SameFlags u (freeRecord u i) := by
    unfold freeRecord
    split <;> exact ⟨rfl, rfl, rfl⟩
  have outcome (u : State) : SameFlags u (settleOutcome u i) := by
    unfold settleOutcome
    split
    · exact .refl u
    · split
      · exact freed u
      · split
        · exact ⟨rfl, rfl, rfl⟩
        · exact SameFlags.trans (t := setRecord u i _) ⟨rfl, rfl, rfl⟩ (sameFlags_admissionRequest _ i)
  have settled (u : State) : SameFlags u (settleAtOnce (enterSettling u i r) i) := by
    refine SameFlags.trans (t := enterSettling u i r) ⟨rfl, rfl, rfl⟩ ?_
    unfold settleAtOnce
    split
    · exact .refl _
    · split
      · exact outcome _
      · exact .refl _
  unfold lastRelease
  split
  · exact SameFlags.trans (t := leaveDeferred s (railOf s r) i) ⟨rfl, rfl, rfl⟩ (freed _)
  · exact freed s
  · exact settled s
  · exact settled s
  · exact settled s
  · exact settled s
  · exact ⟨rfl, rfl, rfl⟩
  · exact ⟨rfl, rfl, rfl⟩

theorem sameFlags_releaseVisit (pat : Pattern) (s : State) (i : Nat) : SameFlags s (releaseVisit pat s i) := by
  unfold releaseVisit
  split
  · exact .refl s
  · dsimp only
    split
    · exact .refl s
    · split
      · exact sameFlags_lastRelease s i _
      · exact ⟨rfl, rfl, rfl⟩

/-- The work after a release, rail by rail, keeps what the work on each rail keeps. -/
theorem workAfterRelease_induction {P : State → State → Prop} (hrefl : ∀ u, P u u)
    (htrans : ∀ {u v w}, P u v → P v w → P u w) (hwork : ∀ u k, k < 4 → P u (allocatorWork u k))
    (before after : State) :
    P after (workAfterRelease before after) := by
  refine List.foldlRecOn (motive := P after) _ _ (hrefl after) fun v hv k hk => ?_
  have hk' : k < 4 := (by decide : ∀ k ∈ four, k < 4) k hk
  split
  · exact htrans hv (hwork v k hk')
  · exact hv

theorem sameFlags_releaseRequest (s : State) (pat : Pattern) : SameFlags s (releaseRequest s pat) := by
  have hvisits : SameFlags s (releaseVisits s pat) :=
    List.foldlRecOn (motive := SameFlags s) _ _ (.refl s) fun v hv i _ => hv.trans (sameFlags_releaseVisit pat v i)
  exact hvisits.trans
    (workAfterRelease_induction SameFlags.refl SameFlags.trans (fun u k _ => sameFlags_allocatorWork u k) _ _)

/-- A release request is of the sounding table, the rails and the counters alone. -/
theorem releaseRequest_frame (s : State) (pat : Pattern) : releaseRequest s pat = { s with
    table := (releaseRequest s pat).table, rails := (releaseRequest s pat).rails
    counters := (releaseRequest s pat).counters } := by
  obtain ⟨hpending, hdetails, hfirst⟩ := sameFlags_releaseRequest s pat
  have hframe := tableFrame_releaseRequest s pat
  rw [TableFrame, hpending, hdetails, hfirst] at hframe
  exact hframe

/-! ### What it leaves of each record -/

/-- The claims, ranks and pipes that the visits leave stand through the allocator's work. -/
theorem visited_of_releasedBy {hit : Nat → Claim → Bool} {s t : State} (h : ReleasedBy hit s t) :
    ∃ u, VisitedBy hit s u ∧ SameDemands u t := by
  obtain ⟨u, w, hvisits, hwork, htable, -, -⟩ := h
  have hsame : SameDemands u w := by
    rw [hwork]
    refine SameDemands.foldl (fun v k => ?_) _ u
    split
    · exact sameDemands_allocatorWork v k
    · exact SameDemands.refl v
  refine ⟨u, hvisits, fun i => ?_⟩
  rw [recordAt, htable, ← recordAt]
  exact hsame i

theorem recordAt_none_of_releasedBy {hit : Nat → Claim → Bool} {s t : State} (h : ReleasedBy hit s t) {i : Nat}
    (hr : recordAt s i = none) : recordAt t i = none := by
  obtain ⟨u, ⟨-, -, hrecord, -⟩, hsame⟩ := visited_of_releasedBy h
  have hi := hsame i
  rw [hrecord, hr] at hi
  exact Option.map_eq_none_iff.1 hi

/-- A record that keeps a claim stays of its rank and pipe, with the claims that do not match. -/
theorem recordAt_kept_of_releasedBy {hit : Nat → Claim → Bool} {s t : State} (h : ReleasedBy hit s t) {i : Nat}
    {r : Record} (hr : recordAt s i = some r) (hkeeps : losesLast hit i r = false) :
    ∃ x, recordAt t i = some x ∧ x.rank = r.rank ∧ x.pipe = r.pipe ∧ x.kind = r.kind
      ∧ x.claims = r.claims.filter fun c => !hit i c := by
  obtain ⟨u, ⟨-, -, hrecord, -⟩, hsame⟩ := visited_of_releasedBy h
  have hi := hsame i
  rw [hrecord, hr, Option.bind_some, hkeeps] at hi
  obtain ⟨x, hx, hdemand⟩ := Option.map_eq_some_iff.1 hi
  simp only [Record.demand, Prod.mk.injEq] at hdemand
  obtain ⟨hrank, hpipe, hkind, hclaims⟩ := hdemand
  exact ⟨x, hx, hrank, hpipe, hkind, hclaims⟩

theorem afterLastRelease_claims {s : State} {r x : Record} (h : afterLastRelease s r = some x) : x.claims = [] := by
  unfold afterLastRelease at h
  split at h
  case h_1 | h_2 => cases h
  case h_7 | h_8 => rw [← Option.some.inj h]
  all_goals
    dsimp only at h
    split at h
    · cases h
    · rw [← Option.some.inj h]

/-- A record of the state after a release holds no claim that matches. -/
theorem hit_of_releasedBy {hit : Nat → Claim → Bool} {s t : State} (h : ReleasedBy hit s t) {i : Nat} {x : Record}
    (hx : recordAt t i = some x) {c : Claim} (hc : c ∈ x.claims) : hit i c = false := by
  obtain ⟨u, ⟨-, -, hrecord, -⟩, hsame⟩ := visited_of_releasedBy h
  have hi := hsame i
  rw [hx, hrecord] at hi
  obtain ⟨y, hy, hdemand⟩ := Option.map_eq_some_iff.1 hi.symm
  simp only [Record.demand, Prod.mk.injEq] at hdemand
  rw [← hdemand.2.2.2] at hc
  obtain ⟨r, -, hleft⟩ := Option.bind_eq_some_iff.1 hy
  split at hleft
  · rw [afterLastRelease_claims hleft] at hc
    cases hc
  · rw [← Option.some.inj hleft, List.mem_filter] at hc
    simpa using hc.2

theorem losesLast_of_miss {hit : Nat → Claim → Bool} {i : Nat} {r : Record} (hmiss : ∀ c, hit i c = false) :
    losesLast hit i r = false := by
  rw [losesLast]
  cases r.claims with
  | nil => rfl
  | cons c cs => simp [hmiss]

/-- A record whose claims do not match keeps its place and its claims. -/
theorem claims_of_releasedBy_untouched {hit : Nat → Claim → Bool} {s t : State} (h : ReleasedBy hit s t) {i : Nat}
    (hmiss : ∀ c, hit i c = false) : (recordAt t i).map Record.claims = (recordAt s i).map Record.claims := by
  cases hr : recordAt s i with
  | none => rw [recordAt_none_of_releasedBy h hr]
  | some r =>
    obtain ⟨x, hx, -, -, -, hclaims⟩ := recordAt_kept_of_releasedBy h hr (losesLast_of_miss hmiss)
    rw [hx, Option.map_some, Option.map_some, hclaims]
    simp [hmiss]

/-! ### A record freed from WAITING leaves every list (R33) -/

/-- After a release request that takes the last claim of a WAITING record, no list holds its index. -/
theorem not_mem_deferred_releaseRequest {s : State} (hd : DeferredSound s) {pat : Pattern} {i : Nat} {r : Record}
    (hr : recordAt s i = some r) (hwaits : r.state = .waiting) (hlast : losesLast (hits pat) i r = true) {k : Nat}
    (hk : k < 4) : i ∉ (railAt (releaseRequest s pat) k).deferred := by
  obtain ⟨-, -, hrecord, hrails⟩ := visitedBy_releaseVisits s pat
  have hstill : Still i (releaseVisits s pat) := by
    refine ⟨fun k hk hmem => ?_, fun x hx => ?_⟩
    · rw [hrails k hk, List.mem_filter] at hmem
      obtain ⟨q, hq, -, hrail⟩ := ((hd k hk).2 i).1 hmem.1
      cases hr.symm.trans hq
      simp [leavesList, hr, hwaits, hlast, hrail] at hmem
    · rw [hrecord, hr, Option.bind_some, hlast, if_pos rfl, afterLastRelease, hwaits] at hx
      cases hx
  have hkeeps := workAfterRelease_induction (KeepsStill.refl i) KeepsStill.trans
    (fun u k hk => keepsStill_allocatorWork i k hk u) s (releaseVisits s pat)
  exact (hkeeps hstill).2.1 k hk

/-! ### A release that finds nothing -/

theorem releaseVisit_of_kept {pat : Pattern} {s : State} {i : Nat}
    (h : ∀ r, recordAt s i = some r → ∀ c ∈ r.claims, hits pat i c = false) : releaseVisit pat s i = s := by
  unfold releaseVisit
  split
  · rfl
  · next r hr =>
    refine if_pos (congrArg List.length (List.filter_eq_self.2 fun c hc => ?_))
    exact congrArg (!·) (h r hr c hc)

theorem railTouched_self (s : State) (k : Nat) : railTouched s s k = false := by
  simp [railTouched]

theorem workAfterRelease_self (s : State) : workAfterRelease s s = s := by
  simp [workAfterRelease, four, railTouched_self]

/-- A release request that matches no claim held changes nothing. -/
theorem releaseRequest_of_kept {pat : Pattern} {s : State}
    (h : ∀ i r, recordAt s i = some r → ∀ c ∈ r.claims, hits pat i c = false) : releaseRequest s pat = s := by
  have hvisits : releaseVisits s pat = s :=
    List.foldlRecOn (motive := (· = s)) _ _ rfl fun v hv i _ => by rw [hv]; exact releaseVisit_of_kept (h i)
  rw [releaseRequest, hvisits, workAfterRelease_self]

/-! ### The number of claims a release removes (R43, R44) -/

/-- The claims of all the records in use. -/
theorem claimsRemoved_all (s : State) : claimsRemoved s .all = ((List.range 448).map fun i =>
    match recordAt s i with
    | none => 0
    | some r => r.claims.length).sum := by
  rw [claimsRemoved, sum_occupied s _ fun i hi => by simp only [hi]]
  refine congrArg List.sum (List.map_congr_left fun i _ => ?_)
  cases recordAt s i with
  | none => rfl
  | some r => simp [keptClaims, matchesPattern]

/-! ### The statement -/

theorem afterLastRelease_eq (s : State) (r : Record) : afterLastRelease s r = (match r.state with
    | .waiting => none
    | .struck => none
    | .striking => some { r with claims := [], cycle := none, cycleHeld := false }
    | .settling => some { r with claims := [] }
    | _ =>
      if (rankAt s r.rank).minOff = 0 then none
      else
        some { r with
          claims := [], state := .settling, charge := 0, phase := some (rankAt s r.rank).minOff
          cycle := none, cycleHeld := false, protection := none, paused := false }) := by
  unfold afterLastRelease
  cases r.state <;> rfl

section Requests

variable {s : State} (hfree : PortFree s) (hrun : takenInRun s.mode = true)
include hfree hrun

theorem exec_allClear : exec (.allClear []) s = .next (respond (releaseRequest (idleFill s) .all,
    okWith (bytes2 (claimsRemoved (idleFill s) .all)))) := by
  rw [exec_worked rfl hfree hrun rfl]
  rfl

theorem exec_silence {params : List Byte} (hlength : params.length = 2) {i : Nat} {r : Record}
    (h : namedRecord s (byteAt params 0) (byteAt params 1) = .ok (i, r)) :
    exec (.silence params) s = .next (respond (releaseRequest (idleFill s) (.record i),
      okWith (bytes2 i ++ [byte r.claims.length]))) := by
  rw [exec_worked rfl hfree hrun hlength]
  change Host.Outcome.next (respond (silenceWork params (idleFill s))) = _
  have hnamed : namedRecord (idleFill s) (byteAt params 0) (byteAt params 1) = .ok (i, r) := h
  rw [silenceWork, hnamed]

theorem exec_silence_error {params : List Byte} (hlength : params.length = 2) {st : Status}
    (h : namedRecord s (byteAt params 0) (byteAt params 1) = .error st) :
    exec (.silence params) s = .next (answered s st []) := by
  refine exec_refuses rfl hfree hrun hlength ?_
  change silenceWork params (idleFill s) = _
  have hnamed : namedRecord (idleFill s) (byteAt params 0) (byteAt params 1) = .error st := h
  rw [silenceWork, hnamed]

end Requests

/-- A release that a request makes is that of the state before it. -/
theorem releasedBy_respond (s : State) (pat : Pattern) (a : Response) :
    ReleasedBy (hits pat) s (respond (releaseRequest (idleFill s) pat, a)) :=
  releasedBy_releaseRequest (idleFill s) pat

theorem registration_respond_release (s : State) (pat : Pattern) (a : Response) :
    let t := respond (releaseRequest (idleFill s) pat, a)
    t.drawn = s.drawn ∧ t.tremulants = s.tremulants ∧ t.grants = s.grants ∧ t.portA = s.portA
      ∧ t.portB = s.portB ∧ t.runs = s.runs := by
  dsimp only [respond]
  rw [releaseRequest_frame]
  exact ⟨rfl, rfl, rfl, rfl, rfl, rfl⟩

/-- What a release by pattern leaves of the record it names (R43). -/
theorem losesLast_record (i : Nat) (r : Record) : losesLast (hits (.record i)) i r = !r.claims.isEmpty := by
  simp [losesLast, matchesPattern]

/-- SILENCE of a record whose list is empty finds nothing. -/
theorem releaseRequest_record_of_empty {s : State} {i : Nat} {r : Record} (hr : recordAt s i = some r)
    (hempty : r.claims = []) : releaseRequest s (.record i) = s := by
  refine releaseRequest_of_kept fun j q hq c hc => ?_
  refine beq_eq_false_iff_ne.2 fun hij => ?_
  rw [hij, hr] at hq
  rw [← Option.some.inj hq, hempty] at hc
  cases hc

/-- What SILENCE leaves: the record at its last release, every other with its claims (R43). -/
theorem silence_released {s : State} {i : Nat} {r : Record} (hr : recordAt s i = some r) :
    let a := okWith (bytes2 i ++ [byte r.claims.length])
    let t := respond (releaseRequest (idleFill s) (.record i), a)
    ReleasedBy (fun j _ => j == i) s t
      ∧ (r.claims = [] → t = answered s .ok (bytes2 i ++ [0]))
      ∧ (DeferredSound s → PausedSound s →
          recordAt t i = (if r.claims = [] then some r else afterLastRelease s r)
          ∧ (r.state = .waiting → r.claims ≠ [] → ∀ k, k < 4 → i ∉ (railAt t k).deferred)
          ∧ ∀ j x, j ≠ i → recordAt s j = some x → x.state ≠ .waiting → x.paused = false →
            recordAt t j = some x)
      ∧ (∀ x, recordAt t i = some x → x.claims = [])
      ∧ (∀ j, j ≠ i → (recordAt t j).map Record.claims = (recordAt s j).map Record.claims)
      ∧ t.drawn = s.drawn ∧ t.tremulants = s.tremulants ∧ t.grants = s.grants ∧ t.portA = s.portA
      ∧ t.portB = s.portB ∧ t.runs = s.runs := by
  intro a t
  have hhits : hits (.record i) = fun j _ => j == i := rfl
  have hreleased := releasedBy_respond s (.record i) a
  have hempty (h : r.claims = []) : t = answered s .ok (bytes2 i ++ [0]) := by
    have hsame : releaseRequest (idleFill s) (.record i) = idleFill s := releaseRequest_record_of_empty hr h
    change respond (releaseRequest (idleFill s) (.record i), okWith (bytes2 i ++ [byte r.claims.length])) = _
    rw [hsame, h]
    rfl
  refine ⟨hreleased, hempty, fun hd hp => ⟨?_, ?_, ?_⟩, ?_, ?_, registration_respond_release s _ a⟩
  · split
    · next h =>
      rw [hempty h]
      exact hr
    · next h =>
      have hlast : losesLast (hits (.record i)) i r = true := by
        rw [losesLast_record]
        simpa using h
      have hw (q : Record) (hq : recordAt s i = some q) (hkeeps : losesLast (hits (.record i)) i q = false) :
          q.state ≠ .waiting ∧ q.paused = false := by
        cases hr.symm.trans hq
        cases hlast.symm.trans hkeeps
      rw [recordAt_of_releasedBy hd hreleased hw hp, hr, Option.bind_some, if_pos hlast]
  · intro hwaits h k hk
    have hlast : losesLast (hits (.record i)) i r = true := by
      rw [losesLast_record]
      simpa using h
    exact not_mem_deferred_releaseRequest (s := idleFill s) hd hr hwaits hlast hk
  · intro j x hj hx hwaits hpaused
    have hmiss (c : Claim) : hits (.record i) j c = false := beq_eq_false_iff_ne.2 hj
    have hkeeps : losesLast (hits (.record i)) j x = false := losesLast_of_miss hmiss
    have hw (q : Record) (hq : recordAt s j = some q) (_ : losesLast (hits (.record i)) j q = false) :
        q.state ≠ .waiting ∧ q.paused = false := by
      cases hx.symm.trans hq
      exact ⟨hwaits, hpaused⟩
    rw [recordAt_of_releasedBy hd hreleased hw hp, hx, Option.bind_some, hkeeps]
    have hclaims : (x.claims.filter fun c => !hits (.record i) j c) = x.claims :=
      List.filter_eq_self.2 fun c _ => congrArg (!·) (hmiss c)
    rw [hclaims]
    rfl
  · intro x hx
    refine List.eq_nil_iff_forall_not_mem.2 fun c hc => ?_
    have hmiss := hit_of_releasedBy hreleased hx hc
    rw [hhits] at hmiss
    simp at hmiss
  · exact fun j hj => claims_of_releasedBy_untouched hreleased fun c => beq_eq_false_iff_ne.2 hj

/-- Settles O20. -/
theorem clearAndSilenceRemoveClaims : Obligations.ClearAndSilenceRemoveClaims := by
  unfold Obligations.ClearAndSilenceRemoveClaims
  refine ⟨fun s pat hit hhit => ?_, fun hit s t hd hp h i => ?_, fun s hfree hmode => ?_⟩
  · have hhits : hit = hits pat := funext fun i => funext fun c => hhit i c
    rw [hhits]
    exact ⟨releasedBy_releaseRequest s pat, releaseRequest_frame s pat⟩
  · cases hr : recordAt s i with
    | none => exact recordAt_none_of_releasedBy h hr
    | some r =>
      dsimp only
      split
      · next hlast =>
        have hw (q : Record) (hq : recordAt s i = some q) (hkeeps : losesLast hit i q = false) :
            q.state ≠ .waiting ∧ q.paused = false := by
          cases hr.symm.trans hq
          cases hlast.symm.trans hkeeps
        rw [recordAt_of_releasedBy hd h hw hp, hr, Option.bind_some, if_pos hlast]
        exact afterLastRelease_eq s r
      · next hlast =>
        split
        · next hstill =>
          have hw (q : Record) (hq : recordAt s i = some q) (_ : losesLast hit i q = false) :
              q.state ≠ .waiting ∧ q.paused = false := by
            cases hr.symm.trans hq
            exact hstill
          rw [recordAt_of_releasedBy hd h hw hp, hr, Option.bind_some, if_neg hlast]
        · exact recordAt_kept_of_releasedBy h hr (Bool.eq_false_iff.2 hlast)
  · have hrun : takenInRun s.mode = true := by rw [hmode]; rfl
    refine ⟨⟨_, exec_allClear hfree hrun, releasedBy_respond s .all _, ?_, ?_,
      registration_respond_release s .all _⟩, ?_, ?_, ?_⟩
    · rintro c ⟨i, x, hx, hc⟩
      cases hit_of_releasedBy (releasedBy_respond s .all _) hx hc
    · exact congrArg (fun n => some (okWith (bytes2 n))) ((claimsRemoved_all (idleFill s)).trans rfl)
    · intro rank pipe i r hrank hpipe hi hr
      have hnamed : namedRecord s (byteAt [byte rank, byte pipe] 0) (byteAt [byte rank, byte pipe] 1) = .ok (i, r) := by
        rw [byteAt_pair_zero (by omega), byteAt_pair_one _ (by omega), namedRecord_found hrank hpipe hi hr]
      exact ⟨_, exec_silence hfree hrun rfl hnamed, rfl, silence_released hr⟩
    · intro rank pipe hrank hpipe h
      refine exec_silence_error hfree hrun rfl ?_
      rw [byteAt_pair_zero (by omega), byteAt_pair_one _ (by omega), namedRecord_notFound hrank hpipe h]
    · intro rank pipe hrank hpipe h
      refine exec_silence_error hfree hrun rfl ?_
      rw [byteAt_pair_zero hrank, byteAt_pair_one _ hpipe, namedRecord_range h]

end Sys2Proof.Proofs.Releases
end

section
/-! PROOFS. The frame of a change of the effective set (R87 to R89, R97), and RECALL as a recall press of the host (R100
to R105, R110): O23. -/

namespace Sys2Proof.Proofs.Changes

open Sys2Proof.Machine Sys2Proof.Proofs.ServicePort Sys2Proof.Proofs.Reads Sys2Proof.Proofs.Steps
open Sys2Proof.Proofs.Claims Sys2Proof.Proofs.PortLoss Sys2Proof.Proofs.Registration Sys2Proof.Proofs.Tables
open Sys2Proof.Proofs.Pistons Sys2Proof.Proofs.Entries

/-! ### The frame of a change of the effective set -/

/-- t is s but for the sounding table, the rails, the counters, attention and the outputs of the tremulants. -/
def ChangeFrame (s t : State) : Prop :=
  t = { s with
    tremulants := t.tremulants, table := t.table, rails := t.rails, counters := t.counters
    pendingCauses := t.pendingCauses, details := t.details, firstCause := t.firstCause }

theorem ChangeFrame.refl (s : State) : ChangeFrame s s := rfl

theorem ChangeFrame.trans {s t u : State} (h : ChangeFrame s t) (k : ChangeFrame t u) : ChangeFrame s u := by
  unfold ChangeFrame at *
  rw [h] at k
  exact k

theorem changeFrame_of_tableFrame {s t : State} (h : TableFrame s t) : ChangeFrame s t := by
  unfold ChangeFrame
  rw [h]

theorem Turns.changeFrame_foldl {f : State → Nat → State} (hf : Turns f) (xs : List Nat) (s : State) :
    ChangeFrame s (xs.foldl f s) := by
  refine List.foldlRecOn (motive := ChangeFrame s) _ _ (.refl s) fun v hv n _ => hv.trans ?_
  have hturn := hf v n
  split at hturn
  · rw [hturn]
    rfl
  · exact changeFrame_of_tableFrame hturn

theorem changeFrame_changeEffective (claims : Bool) (before : StopSet) (s : State) :
    ChangeFrame s (changeEffective claims before s) :=
  (Turns.changeFrame_foldl turns_goOff _ s).trans (Turns.changeFrame_foldl (turns_comeOn claims) _ _)

theorem portAt_of_changeFrame {s t : State} (h : ChangeFrame s t) (p : PortId) : portAt t p = portAt s p := by
  rw [h]
  cases p <;> rfl

/-! ### The held scope (R100, R104) -/

theorem filter_singleton {a : Nat} (ha : a < 5) (f : Nat → Bool) :
    [a].filter f = (List.range 5).filter fun d => f d && decide (d = a) := by
  have hone : (List.range 5).filter (fun d => decide (d = a)) = [a] := by
    interval_cases a <;> rfl
  rw [← List.filter_filter, hone]

/-- The divisions of a code's scope that a port holds, in the words of the statement. -/
def heldDivisions (s : State) (p : PortId) (code : Nat) : List Nat :=
  (List.range 5).filter fun d => decide (granting s d = some p
    ∧ (code ≤ 9 ∨ code = 41 ∨ (10 ≤ code ∧ code ≤ 39 ∧ d = (code - 10) / 6) ∨ (42 ≤ code ∧ d = code - 42)))

theorem heldScope_eq (s : State) (p : PortId) {code : Nat} (h : code ≤ 39 ∨ (41 ≤ code ∧ code ≤ 46)) :
    heldScope s p code = heldDivisions s p code := by
  unfold heldScope scopeOf heldDivisions
  split
  · next hall =>
    change (List.range 5).filter _ = _
    refine List.filter_congr fun d _ => ?_
    have hscope : code ≤ 9 ∨ code = 41 ∨ (10 ≤ code ∧ code ≤ 39 ∧ d = (code - 10) / 6)
        ∨ (42 ≤ code ∧ d = code - 42) := by
      omega
    simp only [holds, hscope, and_true]
    exact beq_eq_decide _ _
  · next hnot =>
    have hsingle : ∀ a, a < 5 →
        (∀ d, (code ≤ 9 ∨ code = 41 ∨ (10 ≤ code ∧ code ≤ 39 ∧ d = (code - 10) / 6) ∨ (42 ≤ code ∧ d = code - 42)) ↔
          d = a) →
        [a].filter (fun d => holds s p d) = heldDivisions s p code := by
      intro a ha hscope
      rw [filter_singleton ha, heldDivisions]
      refine List.filter_congr fun d _ => ?_
      simp only [hscope d, holds, Bool.decide_and]
      exact congrArg (· && _) (beq_eq_decide _ _)
    split
    · exact hsingle _ (by omega) fun d => by omega
    · exact hsingle _ (by omega) fun d => by omega

/-! ### RECALL taken (R110) -/

theorem enabledPort_of_code {s : State} {p : PortId} (h : (portAt s p).entry.enabled = true) :
    enabledPort s (portCode p) = some p := by
  rw [enabledPort, portOfCode_portCode]
  exact if_pos h

theorem enabledPort_eq_none {s : State} {a : Nat} (h : ∀ p, a = portCode p → (portAt s p).entry.enabled = false) :
    enabledPort s a = none := by
  rw [enabledPort, portOfCode_eq]
  by_cases h1 : a = 1
  · have := h .A h1
    simp [h1, this]
  · by_cases h2 : a = 2
    · have := h .B h2
      simp [h2, this]
    · simp [h1, h2]

section Recall

variable {s : State} (hfree : PortFree s) (hrun : takenInRun s.mode = true)
include hfree hrun

theorem exec_recallPiston_range {a code : Nat} (ha : a < 256) (hc : code < 256)
    (h : 63 < code ∨ ∀ p, a = portCode p → (portAt s p).entry.enabled = false) :
    exec (.recallPiston [byte a, byte code]) s = .next (answered s .range []) := by
  refine exec_refuses rfl hfree hrun rfl ?_
  change recallWork [byte a, byte code] (idleFill s) = _
  unfold recallWork
  rw [byteAt_pair_zero ha, byteAt_pair_one _ hc]
  split
  · rfl
  · next p hp =>
    refine if_pos (h.resolve_right fun hoff => ?_)
    have hnone : enabledPort (idleFill s) a = none := by
      refine enabledPort_eq_none fun q hq => ?_
      rw [idleFill_eq_withPort, portAt_withPort]
      exact hoff q hq
    rw [hnone] at hp
    cases hp

/-- What RECALL comes to at an enabled port: the piston's action on the state answered with its outcome. -/
theorem exec_recallPiston {p : PortId} (hp : (portAt s p).entry.enabled = true) {code : Nat} (hc : code ≤ 63) :
    exec (.recallPiston [byte (portCode p), byte code]) s =
      .next (respond ((pistonAction (idleFill s) p code).1,
        okWith [byte (outcomeCode (pistonAction (idleFill s) p code).2)])) := by
  rw [exec_worked rfl hfree hrun rfl]
  change Host.Outcome.next (respond (recallWork [byte (portCode p), byte code] (idleFill s))) = _
  have henabled : enabledPort (idleFill s) (portCode p) = some p := by
    refine enabledPort_of_code ?_
    rw [idleFill_eq_withPort, portAt_withPort]
    exact hp
  rw [recallWork, byteAt_pair_zero (portCode_lt p), byteAt_pair_one _ (by omega), henabled]
  dsimp only
  rw [if_neg (by omega)]

/-- With a code 0 to 39 or 41 to 46 it is the outcome of a recall press, answered. -/
theorem exec_recallPiston_outcome {p : PortId} (hp : (portAt s p).entry.enabled = true) {code : Nat}
    (hc : code ≤ 39 ∨ (41 ≤ code ∧ code ≤ 46)) :
    exec (.recallPiston [byte (portCode p), byte code]) s =
      .next (answered (recallPress s p code).1 .ok [byte (outcomeCode (recallPress s p code).2)]) := by
  rw [exec_recallPiston hfree hrun hp (by omega), pistonAction_recalls hc, idleFill_eq_withPort, recallPress_withPort,
    respond_withPort, answered_eq_withPort]
  rfl

/-- It is that press on the answered state. -/
theorem exec_recallPiston_press {p : PortId} (hp : (portAt s p).entry.enabled = true) {code : Nat}
    (hc : code ≤ 39 ∨ (41 ≤ code ∧ code ≤ 46)) :
    exec (.recallPiston [byte (portCode p), byte code]) s =
      .next (recallPress (answered s .ok [byte (outcomeCode (recallPress s p code).2)]) p code).1 := by
  rw [exec_recallPiston_outcome hfree hrun hp hc, answered_eq_withPort, answered_eq_withPort, recallPress_withPort]

end Recall

/-! ### The three outcomes of a press (R104) -/

section Press

variable {s : State} {p : PortId} {code : Nat}

theorem recallPress_ungranted (h : heldScope s p code = []) : recallPress s p code = (ungranted s p, .ungranted) :=
  if_pos h

theorem recallPress_pending (h : heldScope s p code ≠ []) (hprogress : (portAt s p).recallSlot.inProgress = true) :
    recallPress s p code =
      (setRecall s p { (portAt s p).recallSlot with pendingPiston := some code }, .pending) :=
  (if_neg h).trans (if_pos hprogress)

theorem recallPress_executes (h : heldScope s p code ≠ []) (hprogress : (portAt s p).recallSlot.inProgress = false) :
    recallPress s p code = (recallExecute s p code (heldScope s p code), .executed) :=
  (if_neg h).trans (if_neg (by rw [hprogress]; decide))

end Press

/-! ### The recall executed (R105) -/

theorem getLsbD_drawnByRecall (s : State) (held : List Nat) (record : StopSet) {n : Nat} (hn : n < 256) :
    (drawnByRecall s held record).getLsbD n =
      if (stopAt s n).kind ≠ .unused ∧ (stopAt s n).division ∈ held then record.getLsbD n else s.drawn.getLsbD n := by
  have hscope := getLsbD_stopsIn s held hn
  rw [drawnByRecall, BitVec.getLsbD_or, BitVec.getLsbD_and, BitVec.getLsbD_and, BitVec.getLsbD_not, hscope]
  split
  · next h => simp [h]
  · next h => rw [decide_eq_false h]; simp [hn]

/-- The set a recall drives into a port's slot, and its timer (R103, R105). -/
def drivenSlot (c : ConsolePort) (old new : StopSet) : RecallSlot :=
  { c.recallSlot with
    inProgress := true, driveOn := new &&& ~~~ old, driveOff := old &&& ~~~ new, timer := some c.entry.drivePeriod }

/-- The state a recall executed leaves: the drawn states, the change of the effective set, and the drive. -/
theorem recallExecute_eq (s : State) (p : PortId) (code : Nat) (held : List Nat) :
    let new := drawnByRecall s held (recallRecord s p code)
    let u := changeEffective true (effectiveSet s) (setDrawn s new)
    recallExecute s p code held =
      setPort u p { portAt u p with recallSlot := drivenSlot (portAt s p) s.drawn new } := by
  intro new u
  have hport : portAt u p = portAt s p :=
    (portAt_of_changeFrame (changeFrame_changeEffective _ _ _) p).trans (by cases p <;> rfl)
  change setRecall u p _ = _
  rw [setRecall, hport]
  rfl

theorem kept_setPort_change {s u : State} {new : StopSet} (h : ChangeFrame (setDrawn s new) u) (p : PortId)
    (c : ConsolePort) :
    (setPort u p c).drawn = new ∧ (setPort u p c).combination = s.combination ∧ (setPort u p c).grants = s.grants
      ∧ (setPort u p c).stops = s.stops ∧ (setPort u p c).dirty = s.dirty ∧ (setPort u p c).response = s.response := by
  rw [h]
  cases p <;> exact ⟨rfl, rfl, rfl, rfl, rfl, rfl⟩

/-- What a recall executed leaves, in the words of R105. -/
theorem recallExecute_leaves (s : State) (p : PortId) (code : Nat) (held : List Nat) :
    let t := recallExecute s p code held
    (∀ n, n < 256 → (stopAt s n).kind ≠ .unused → (stopAt s n).division ∈ held →
        t.drawn.getLsbD n = (decide (code ≤ 39) && (combinationAt s (portAt s p).level code).getLsbD n))
    ∧ (∀ n, (stopAt s n).kind = .unused ∨ (stopAt s n).division ∉ held → t.drawn.getLsbD n = s.drawn.getLsbD n)
    ∧ (let u := changeEffective true (effectiveSet s) (setDrawn s t.drawn)
      t = setPort u p { portAt u p with recallSlot := drivenSlot (portAt s p) s.drawn t.drawn })
    ∧ (portAt t p).recallSlot = drivenSlot (portAt s p) s.drawn t.drawn
    ∧ (portAt t p).level = (portAt s p).level
    ∧ t.combination = s.combination ∧ t.grants = s.grants ∧ t.stops = s.stops ∧ t.dirty = s.dirty
    ∧ t.response = s.response := by
  intro t
  have hframe := changeFrame_changeEffective true (effectiveSet s)
    (setDrawn s (drawnByRecall s held (recallRecord s p code)))
  have ht : t = _ := recallExecute_eq s p code held
  obtain ⟨hdrawn, hkept⟩ := kept_setPort_change hframe p _
  rw [← ht] at hdrawn hkept
  refine ⟨fun n hn hkind hdivision => ?_, fun n hout => ?_, ?_, ?_, ?_, hkept⟩
  · rw [hdrawn, getLsbD_drawnByRecall s held _ hn, if_pos ⟨hkind, hdivision⟩, recallRecord]
    by_cases hcode : code ≤ 39 <;> simp [hcode]
  · by_cases hn : n < 256
    · rw [hdrawn, getLsbD_drawnByRecall s held _ hn, if_neg fun h => hout.elim h.1 fun hno => hno h.2]
    · rw [BitVec.getLsbD_of_ge _ _ (Nat.le_of_not_lt hn), BitVec.getLsbD_of_ge _ _ (Nat.le_of_not_lt hn)]
  · rw [hdrawn]
    exact ht
  · rw [hdrawn, ht, portAt_setPort_same]
  · rw [ht, portAt_setPort_same, portAt_of_changeFrame hframe]
    cases p <;> rfl

/-- Settles O23: the code's action on the answered state, case by case of the recall press. -/
theorem recallActsAsAPiston : Obligations.RecallActsAsAPiston := by
  unfold Obligations.RecallActsAsAPiston
  intro s hfree hmode
  have hrun : takenInRun s.mode = true := by rw [hmode]; rfl
  refine ⟨fun a code ha hc h => exec_recallPiston_range hfree hrun ha hc h, fun p hp => ⟨fun code hc => ?_, ?_, ?_, ?_⟩⟩
  · rw [exec_recallPiston hfree hrun hp (by omega), pistonAction_other (by omega) (by omega), if_neg (by omega),
      if_neg (by omega)]
    rfl
  · refine (exec_recallPiston hfree hrun hp (code := 47) (by omega)).trans ?_
    rw [pistonAction_other (by omega) (by omega)]
    cases p <;> rfl
  · refine (exec_recallPiston hfree hrun hp (code := 48) (by omega)).trans ?_
    rw [pistonAction_other (by omega) (by omega)]
    cases p <;> rfl
  · intro code hc held
    have hheld : heldScope s p code = held := heldScope_eq s p hc
    have hpress := exec_recallPiston_press hfree hrun hp hc
    refine ⟨hheld, hpress, fun hnone => ?_, fun hsome hprogress => ?_, fun hsome hprogress => ?_⟩
    · rw [exec_recallPiston_outcome hfree hrun hp hc, recallPress_ungranted (hheld.trans hnone)]
      cases p <;> rfl
    · rw [exec_recallPiston_outcome hfree hrun hp hc, recallPress_pending (hheld ▸ hsome) hprogress]
      cases p <;> rfl
    · have hport : portAt (answered s .ok [0]) p = portAt s p := by cases p <;> rfl
      have hanswered : recallPress (answered s .ok [0]) p code =
          (recallExecute (answered s .ok [0]) p code held, .executed) := by
        rw [← hheld]
        exact recallPress_executes (hheld ▸ hsome) (by rw [hport]; exact hprogress)
      rw [recallPress_executes (hheld ▸ hsome) hprogress] at hpress
      obtain ⟨hin, hout, hform, hslot, hlevel, hcombination, hgrants, hstops, hdirty, hresponse⟩ :=
        recallExecute_leaves (answered s .ok [0]) p code held
      rw [hport] at hin hform hslot hlevel
      refine ⟨_, hpress.trans (congrArg (fun x => Host.Outcome.next (Prod.fst x)) hanswered), hresponse, hin, hout, hform,
        ?_, ?_, ?_, ?_, hlevel, hcombination, hgrants, hstops, hdirty⟩
      all_goals exact congrArg _ hslot

end Sys2Proof.Proofs.Changes
end

section
/-! PROOFS. The chamber links (Chapter 9): the output image bit by bit (R149, R150; O45), the frames (R151 to R153; O46),
the reply and what its close begins (R154, R155; O47), and the reply that completes the quiesce (R166; O48). -/

namespace Sys2Proof.Proofs.ChamberLinks

open Sys2Proof.Machine Sys2Proof.Proofs.Reads Sys2Proof.Proofs.Moving Sys2Proof.Proofs.RecordTimers

/-! ### Sets of positions -/

theorem getLsbD_orAll {w : Nat} (xs : List (BitVec w)) (i : Nat) :
    (orAll xs).getLsbD i = true ↔ ∃ x ∈ xs, x.getLsbD i = true := by
  induction xs with
  | nil => simp [orAll]
  | cons x xs ih =>
    change (x ||| orAll xs).getLsbD i = true ↔ _
    rw [BitVec.getLsbD_or, Bool.or_eq_true, ih, List.exists_mem_cons_iff]

theorem getLsbD_onePosition {pos : Nat} (hpos : pos < 768) (q : Nat) :
    (onePosition q).getLsbD pos = true ↔ pos = q := by
  rw [onePosition, BitVec.getLsbD_twoPow]
  simp only [Bool.and_eq_true, decide_eq_true_eq]
  omega

/-- A set that is there on a condition only. -/
theorem getLsbD_ite_zero {w : Nat} (c : Bool) (x : BitVec w) (i : Nat) :
    (if c then x else 0).getLsbD i = true ↔ c = true ∧ x.getLsbD i = true := by
  cases c <;> simp

theorem mem_table_iff {s : State} {r : Record} : some r ∈ s.table.toList ↔ ∃ i, recordAt s i = some r := by
  simp only [List.mem_iff_getElem?, toList_getElem?_eq]

/-! ### The demanded outlets (R149) -/

theorem energizedState_iff {x : RecordState} :
    energizedState x = true ↔ x = .pulling ∨ x = .speaking ∨ x = .striking := by
  cases x <;> simp [energizedState]

section Demand

variable (s : State) (l : Nat) {pos : Nat} (hpos : pos < 768)
include hpos

theorem records_demand_iff : (orAll (s.table.toList.map (recordDemand s l))).getLsbD pos = true ↔
    ∃ i r, recordAt s i = some r ∧ (rankAt s r.rank).link = l
      ∧ (r.state = .pulling ∨ r.state = .speaking ∨ r.state = .striking)
      ∧ pos = (rankAt s r.rank).slot * 16 + (rankAt s r.rank).bit + r.pipe := by
  rw [getLsbD_orAll]
  constructor
  · rintro ⟨x, hx, hbit⟩
    obtain ⟨place, hplace, rfl⟩ := List.mem_map.1 hx
    cases place with
    | none => simp [recordDemand] at hbit
    | some r =>
      obtain ⟨i, hi⟩ := mem_table_iff.1 hplace
      rw [recordDemand, getLsbD_ite_zero, getLsbD_onePosition hpos, Bool.and_eq_true, energizedState_iff,
        beq_iff_eq] at hbit
      obtain ⟨⟨hstate, hlink⟩, hat⟩ := hbit
      exact ⟨i, r, hi, hlink, hstate, hat⟩
  · rintro ⟨i, r, hi, hlink, hstate, hat⟩
    refine ⟨_, List.mem_map_of_mem (mem_table_iff.2 ⟨i, hi⟩), ?_⟩
    rw [recordDemand, getLsbD_ite_zero, getLsbD_onePosition hpos, Bool.and_eq_true, energizedState_iff, beq_iff_eq]
    exact ⟨⟨hstate, hlink⟩, hat⟩

omit hpos in
theorem damperDemanded_iff {q : Nat} :
    damperDemanded s q = true ↔ ∃ i r, recordAt s i = some r ∧ r.rank = q ∧ r.claims ≠ [] := by
  rw [damperDemanded, List.any_eq_true]
  constructor
  · rintro ⟨place, hplace, h⟩
    cases place with
    | none => cases h
    | some r =>
      obtain ⟨i, hi⟩ := mem_table_iff.1 hplace
      exact ⟨i, r, hi, by simpa using h⟩
  · rintro ⟨i, r, hi, h⟩
    exact ⟨some r, mem_table_iff.2 ⟨i, hi⟩, by simpa using h⟩

theorem damperDemand_iff {q : Nat} : (damperDemand s q).getLsbD pos = true ↔
    ∃ slot bit, (rankAt s q).damper = some (slot, bit) ∧ pos = slot * 16 + bit
      ∧ ∃ i r, recordAt s i = some r ∧ r.rank = q ∧ r.claims ≠ [] := by
  unfold damperDemand
  cases hdamper : (rankAt s q).damper with
  | none => simp
  | some x =>
    obtain ⟨slot, bit⟩ := x
    dsimp only
    rw [getLsbD_ite_zero, getLsbD_onePosition hpos, damperDemanded_iff]
    constructor
    · rintro ⟨hheld, hat⟩
      exact ⟨slot, bit, rfl, hat, hheld⟩
    · rintro ⟨_, _, hsame, hat, hheld⟩
      cases hsame
      exact ⟨hheld, hat⟩

theorem tremulantDemand_iff {q : Nat} : (tremulantDemand s q).getLsbD pos = true ↔
    (rankAt s q).kind = .tremulant ∧ s.tremulants.getLsbD q = true
      ∧ pos = (rankAt s q).slot * 16 + (rankAt s q).bit := by
  rw [tremulantDemand, getLsbD_ite_zero, getLsbD_onePosition hpos, Bool.and_eq_true, beq_iff_eq, and_assoc]
  rfl

theorem ranks_demand_iff : (orAll ((List.range 64).map (rankDemand s l))).getLsbD pos = true ↔
    (∃ q slot bit, q < 64 ∧ (rankAt s q).kind ≠ .unused ∧ (rankAt s q).link = l
      ∧ (rankAt s q).damper = some (slot, bit) ∧ pos = slot * 16 + bit
      ∧ ∃ i r, recordAt s i = some r ∧ r.rank = q ∧ r.claims ≠ [])
    ∨ ∃ q, q < 64 ∧ (rankAt s q).kind = .tremulant ∧ (rankAt s q).link = l
      ∧ s.tremulants.getLsbD q = true ∧ pos = (rankAt s q).slot * 16 + (rankAt s q).bit := by
  have hrank (q : Nat) : (rankDemand s l q).getLsbD pos = true ↔
      ((rankAt s q).kind ≠ .unused ∧ (rankAt s q).link = l)
        ∧ ((damperDemand s q).getLsbD pos = true ∨ (tremulantDemand s q).getLsbD pos = true) := by
    rw [rankDemand, getLsbD_ite_zero, Bool.and_eq_true, bne_iff_ne, beq_iff_eq, BitVec.getLsbD_or, Bool.or_eq_true]
  rw [getLsbD_orAll]
  constructor
  · rintro ⟨x, hx, hbit⟩
    obtain ⟨q, hq, rfl⟩ := List.mem_map.1 hx
    obtain ⟨⟨hkind, hlink⟩, hdamper | htremulant⟩ := (hrank q).1 hbit
    · obtain ⟨slot, bit, hslot⟩ := (damperDemand_iff s hpos).1 hdamper
      exact .inl ⟨q, slot, bit, List.mem_range.1 hq, hkind, hlink, hslot⟩
    · obtain ⟨htrem, hon⟩ := (tremulantDemand_iff s hpos).1 htremulant
      exact .inr ⟨q, List.mem_range.1 hq, htrem, hlink, hon⟩
  · rintro (⟨q, slot, bit, hq, hkind, hlink, hslot⟩ | ⟨q, hq, htrem, hlink, hon⟩)
    · refine ⟨_, List.mem_map_of_mem (List.mem_range.2 hq), (hrank q).2 ⟨⟨hkind, hlink⟩, .inl ?_⟩⟩
      exact (damperDemand_iff s hpos).2 ⟨slot, bit, hslot⟩
    · refine ⟨_, List.mem_map_of_mem (List.mem_range.2 hq), (hrank q).2 ⟨⟨?_, hlink⟩, .inr ?_⟩⟩
      · rw [htrem]
        decide
      · exact (tremulantDemand_iff s hpos).2 ⟨htrem, hon⟩

theorem shadeDemand_iff {e : Nat} : (shadeDemand s l e).getLsbD pos = true ↔
    (s.mode = .run ∧ (exprAt s e).target = .shade ∧ (exprAt s e).link = l)
      ∧ (exprAt s e).outSlot * 16 + (exprAt s e).outBit ≤ pos
      ∧ pos < (exprAt s e).outSlot * 16 + (exprAt s e).outBit + (runAt s e).stage := by
  rw [shadeDemand, getLsbD_ite_zero, getLsbD_orAll, Bool.and_eq_true, Bool.and_eq_true, beq_iff_eq, beq_iff_eq, beq_iff_eq]
  refine and_congr and_assoc ?_
  constructor
  · rintro ⟨x, hx, hbit⟩
    obtain ⟨i, hi, rfl⟩ := List.mem_map.1 hx
    have hat := (getLsbD_onePosition hpos _).1 hbit
    have hstage := List.mem_range.1 hi
    rw [position] at hat
    omega
  · rintro ⟨hlow, hhigh⟩
    let start := (exprAt s e).outSlot * 16 + (exprAt s e).outBit
    refine ⟨_, List.mem_map_of_mem (a := pos - start) (List.mem_range.2 (by omega)), ?_⟩
    exact (getLsbD_onePosition hpos _).2 (by rw [position]; omega)

theorem shades_demand_iff : (orAll ((List.range 8).map (shadeDemand s l))).getLsbD pos = true ↔
    s.mode = .run ∧ ∃ e, e < 8 ∧ (exprAt s e).target = .shade ∧ (exprAt s e).link = l
      ∧ (exprAt s e).outSlot * 16 + (exprAt s e).outBit ≤ pos
      ∧ pos < (exprAt s e).outSlot * 16 + (exprAt s e).outBit + (runAt s e).stage := by
  rw [getLsbD_orAll]
  constructor
  · rintro ⟨x, hx, hbit⟩
    obtain ⟨e, he, rfl⟩ := List.mem_map.1 hx
    obtain ⟨⟨hrun, htarget, hlink⟩, hrange⟩ := (shadeDemand_iff s l hpos).1 hbit
    exact ⟨hrun, e, List.mem_range.1 he, htarget, hlink, hrange⟩
  · rintro ⟨hrun, e, he, htarget, hlink, hrange⟩
    refine ⟨_, List.mem_map_of_mem (List.mem_range.2 he), ?_⟩
    exact (shadeDemand_iff s l hpos).2 ⟨⟨hrun, htarget, hlink⟩, hrange⟩

end Demand

/-! ### Held off (R150) -/

theorem windowMatches_iff {w : MuteWindow} {n : Nat} :
    windowMatches w n = true ↔ w.enabled = true
      ∧ ¬ ∃ b, b < 12 ∧ w.mask.getLsbD b = false ∧ (BitVec.ofNat 12 n).getLsbD b ≠ w.base.getLsbD b := by
  rw [windowMatches, Bool.and_eq_true, beq_iff_eq]
  refine and_congr_right fun _ => ?_
  constructor
  · rintro hzero ⟨b, hb, hmask, hne⟩
    have hbit := congrArg (BitVec.getLsbD · b) hzero
    simp only [BitVec.getLsbD_and, BitVec.getLsbD_xor, BitVec.getLsbD_not, hmask] at hbit
    revert hne hbit
    cases (BitVec.ofNat 12 n).getLsbD b <;> cases w.base.getLsbD b <;> simp [hb]
  · intro hagree
    refine BitVec.eq_of_getLsbD_eq fun b hb => ?_
    have hzero : (0 : BitVec 12).getLsbD b = false := by simp
    rw [BitVec.getLsbD_and, BitVec.getLsbD_xor, BitVec.getLsbD_not, hzero]
    by_cases hmask : w.mask.getLsbD b = false
    · by_cases hsame : (BitVec.ofNat 12 n).getLsbD b = w.base.getLsbD b
      · rw [hsame, Bool.xor_self, Bool.false_and]
      · exact absurd ⟨b, hb, hmask, hsame⟩ hagree
    · simp [Bool.eq_true_of_not_eq_false hmask]

theorem muted_eq_false_iff {s : State} {n : Nat} :
    muted s n = false ↔ ∀ w, w ∈ s.mutes.toList → w.enabled = true →
      ∃ b, b < 12 ∧ w.mask.getLsbD b = false ∧ (BitVec.ofNat 12 n).getLsbD b ≠ w.base.getLsbD b := by
  rw [muted, List.any_eq_false]
  refine forall_congr' fun w => forall_congr' fun _ => ?_
  rw [windowMatches_iff, not_and, not_not]

/-- Settles O45: the image is carried, demanded and not held off, and the demand is of a record, of a rank's standing
outlets, or of a shade. -/
theorem imageBitIsDemandedAndNotHeldOff : Obligations.ImageBitIsDemandedAndNotHeldOff := by
  unfold Obligations.ImageBitIsDemandedAndNotHeldOff
  intro s l pos hpos
  have himage : (outputImage s l).getLsbD pos = true ↔
      pos < carried s l ∧ (demandedImage s l).getLsbD pos = true ∧ heldOff s l pos = false := by
    rw [outputImage, getLsbD_bitsOf]
    simp [hpos, and_assoc]
  have hfree : heldOff s l pos = false ↔ muted s (l * 1024 + pos) = false ∧ l * 1024 + pos ∉ s.faults := by
    simp [heldOff, outlet]
  rw [himage, hfree, muted_eq_false_iff, demandedImage, BitVec.getLsbD_or, BitVec.getLsbD_or, Bool.or_eq_true,
    Bool.or_eq_true, records_demand_iff s l hpos, ranks_demand_iff s l hpos, shades_demand_iff s l hpos, or_assoc, or_assoc]
  refine and_congr_right fun _ => ⟨?_, ?_⟩
  · rintro ⟨hdemanded, hmuted, hfaulty⟩
    exact ⟨hfaulty, hmuted, hdemanded⟩
  · rintro ⟨hfaulty, hmuted, hdemanded⟩
    exact ⟨hdemanded, hmuted, hfaulty⟩

end Sys2Proof.Proofs.ChamberLinks
end

section
/-! PROOFS. The frames of a chamber link, their replies and what the close of a reply begins (R151 to R155, R166): O46, O47
and O48. -/

namespace Sys2Proof.Proofs.ChamberLinks

open Sys2Proof.Machine Sys2Proof.Proofs.Reads Sys2Proof.Proofs.Moving Sys2Proof.Proofs.RecordTimers

theorem linkAt_setLink_same (s : State) {l : Nat} (hl : l < 4) (x : Link) : linkAt (setLink s l x) l = x :=
  look_put_same _ _ _ hl

theorem linkAt_setLink_ne (s : State) {l m : Nat} (h : m ≠ l) (x : Link) : linkAt (setLink s l x) m = linkAt s m :=
  look_put_ne _ _ _ h.symm

/-! ### Frames (O46) -/

theorem canBegin_iff {x : Link} : canBegin x = true ↔ x.state ≠ .idle ∧ x.flight = .free ∧ x.served = false := by
  simp [canBegin, and_assoc]

theorem canBegin_of_flight {x : Link} (h : x.flight ≠ .free) : canBegin x = false := by
  simp [canBegin, h]

theorem exec_periodTimerExpiry_begins {s : State} {l : Fin 4} (hbegin : canBegin (linkAt s l) = true) {ms : Nat}
    (hperiod : (linkAt s l).period = some ms) : exec (.periodTimerExpiry l) s = .next (beginFrame s l) := by
  change execPeriodTimerExpiry l s = _
  rw [execPeriodTimerExpiry]
  rw [hperiod, hbegin]
  rfl

theorem exec_periodTimerExpiry_waits {s : State} {l : Fin 4} (hflight : (linkAt s l).flight ≠ .free) {ms : Nat}
    (hperiod : (linkAt s l).period = some ms) :
    exec (.periodTimerExpiry l) s = .next (setLink s l { linkAt s l with period := none, startWaits := true }) := by
  change execPeriodTimerExpiry l s = _
  rw [execPeriodTimerExpiry]
  rw [hperiod, canBegin_of_flight hflight, if_neg (by simp), if_neg (by simp), if_neg hflight]

theorem exec_keepAliveExpiry_begins {s : State} {l : Fin 4} (hbegin : canBegin (linkAt s l) = true) {ms : Nat}
    (hkeep : (linkAt s l).keepAlive = some ms) : exec (.keepAliveExpiry l) s = .next (beginFrame s l) := by
  change execKeepAliveExpiry l s = _
  rw [execKeepAliveExpiry]
  rw [hkeep, hbegin]
  rfl

theorem exec_onDemandFrameStart_begins {s : State} {l : Fin 4} (hbegin : canBegin (linkAt s l) = true)
    (hmode : (linkAt s l).entry.mode = .onDemand) (hchanged : outputImage s l ≠ (linkAt s l).lastSent) :
    exec (.onDemandFrameStart l) s = .next (beginFrame s l) := by
  have hdiffers : imageChanged s l = true := bne_iff_ne.2 hchanged
  change execOnDemandFrameStart l s = _
  rw [execOnDemandFrameStart]
  rw [hmode, hbegin, hdiffers]
  rfl

theorem exec_onDemandFrameStart_unchanged {s : State} {l : Fin 4} (hsame : outputImage s l = (linkAt s l).lastSent) :
    exec (.onDemandFrameStart l) s = .next s := by
  have hdiffers : imageChanged s l = false := by rw [imageChanged, hsame, bne_self_eq_false]
  change execOnDemandFrameStart l s = _
  rw [execOnDemandFrameStart]
  rw [hdiffers, Bool.and_false]
  rfl

theorem exec_frameSent_sending {s : State} {l : Fin 4} (h : (linkAt s l).flight = .sending) :
    exec (.frameSent l) s =
      .next (setLink (bump s (.framesSent l)) l { linkAt s l with flight := .reply }) :=
  if_pos h

theorem exec_frameSent_other {s : State} {l : Fin 4} (h : (linkAt s l).flight ≠ .sending) :
    exec (.frameSent l) s = .next s :=
  if_neg h

/-- Settles O46: each event by whether the link may begin a frame. -/
theorem framesLatchTheImageAndAreCounted : Obligations.FramesLatchTheImageAndAreCounted := by
  unfold Obligations.FramesLatchTheImageAndAreCounted
  refine ⟨fun s l hstate => ?_, fun s l => ⟨exec_frameSent_sending, exec_frameSent_other⟩⟩
  intro sent
  refine ⟨fun hfree hserved => ?_, fun ms hflight hperiod => exec_periodTimerExpiry_waits hflight hperiod⟩
  have hbegin := canBegin_iff.2 ⟨hstate, hfree, hserved⟩
  have hbegun (period keepAlive : Option Nat)
      (hperiod : period = if (linkAt s l).entry.mode = .periodic then some (linkAt s l).entry.period else none)
      (hkeep : keepAlive = if (linkAt s l).entry.mode = .onDemand then some (linkAt s l).entry.keepAlive else none) :
      beginFrame s l = sent period keepAlive := by
    rw [hperiod, hkeep]
    rfl
  refine ⟨fun ms hmode hperiod => ?_, fun ms hmode hkeep => ?_, fun hmode hchanged => ?_,
    exec_onDemandFrameStart_unchanged⟩
  · rw [exec_periodTimerExpiry_begins hbegin hperiod, hbegun _ _ rfl rfl, hmode]
    rfl
  · rw [exec_keepAliveExpiry_begins hbegin hkeep, hbegun _ _ rfl rfl, hmode]
    rfl
  · rw [exec_onDemandFrameStart_begins hbegin hmode hchanged, hbegun _ _ rfl rfl, hmode]
    rfl

/-! ### The faults a reply adds (R155, R156) -/

theorem mem_faults_addFault {s : State} {n m : Nat} : m ∈ (addFault s n).faults ↔ m ∈ s.faults ∨ m = n := by
  unfold addFault
  split
  · next h =>
    have hmem : n ∈ s.faults := by simpa using h
    exact ⟨.inl, fun h => h.elim id fun hmn => hmn ▸ hmem⟩
  · rw [raise_faults, mem_insertAscending]
    exact or_comm

theorem mem_faults_addFaults {xs : List Nat} {s : State} {m : Nat} :
    m ∈ (xs.foldl addFault s).faults ↔ m ∈ s.faults ∨ m ∈ xs := by
  induction xs generalizing s with
  | nil => simp
  | cons n xs ih => rw [List.foldl_cons, ih, mem_faults_addFault, List.mem_cons, or_assoc]

theorem addFault_of_mem {s : State} {n : Nat} (h : n ∈ s.faults) : addFault s n = s :=
  if_pos (by simpa using h)

theorem addFaults_of_mem {xs : List Nat} {s : State} (h : ∀ n ∈ xs, n ∈ s.faults) : xs.foldl addFault s = s :=
  List.foldlRecOn (motive := (· = s)) _ _ rfl fun v hv n hn => by rw [hv]; exact addFault_of_mem (h n hn)

/-- The highest outlet added stands as the detail of OUTLET_FAULT. -/
theorem addFaults_raises {xs : List Nat} {s : State} (hasc : xs.Pairwise (· < ·)) {m : Nat} (hm : m ∈ xs)
    (hnew : m ∉ s.faults) (hmax : ∀ k ∈ xs, k ∉ s.faults → k ≤ m) :
    (xs.foldl addFault s).pendingCauses.getLsbD 1 = true ∧ look (xs.foldl addFault s).details 1 .none = .number m := by
  obtain ⟨before, after, rfl⟩ := List.append_of_mem hm
  obtain ⟨-, hafter, hbefore⟩ := List.pairwise_append.1 hasc
  obtain ⟨hlater, -⟩ := List.pairwise_cons.1 hafter
  rw [List.foldl_append, List.foldl_cons]
  have habsent : m ∉ (before.foldl addFault s).faults := by
    rw [mem_faults_addFaults]
    rintro (h | h)
    · exact hnew h
    · exact absurd (hbefore m h m (List.mem_cons_self ..)) (Nat.lt_irrefl m)
  have hrest : ∀ k ∈ after, k ∈ (addFault (before.foldl addFault s) m).faults := by
    intro k hk
    rw [mem_faults_addFault, mem_faults_addFaults]
    by_contra hno
    have hle := hmax k (List.mem_append_right _ (List.mem_cons_of_mem _ hk)) fun h => hno (.inl (.inl h))
    exact absurd (hlater k hk) (Nat.not_lt.2 hle)
  rw [addFaults_of_mem hrest]
  have hadded : addFault (before.foldl addFault s) m = raise { before.foldl addFault s with
      faults := insertAscending m (before.foldl addFault s).faults } .outletFault (.number m) :=
    if_neg (by simpa using habsent)
  rw [hadded]
  exact ⟨pending_raise_same _ .outletFault _, details_raise_same _ .outletFault _⟩

/-- No other cause moves. -/
theorem addFaults_other_causes (xs : List Nat) (s : State) {b : Nat} (hb : b ≠ 1) :
    (xs.foldl addFault s).pendingCauses.getLsbD b = s.pendingCauses.getLsbD b
      ∧ look (xs.foldl addFault s).details b .none = look s.details b .none := by
  refine List.foldlRecOn (motive := fun v : State => v.pendingCauses.getLsbD b = s.pendingCauses.getLsbD b
    ∧ look v.details b .none = look s.details b .none) _ _ ⟨rfl, rfl⟩ fun v hv n _ => ?_
  obtain ⟨hpending, hdetails⟩ := hv
  unfold addFault
  split
  · exact ⟨hpending, hdetails⟩
  · rw [raise_pendingCauses, raise_details, getLsbD_withBit, look_put_ne _ _ _ (show Cause.bit .outletFault ≠ b from hb.symm)]
    exact ⟨(if_neg fun h => hb h.1.symm).trans hpending, hdetails⟩

theorem reportedFaults_pairwise (l slots : Nat) (words : List Word) :
    (reportedFaults l slots words).Pairwise (· < ·) := by
  refine List.Pairwise.map (R := (· < ·)) _ (fun a b h => ?_) (List.pairwise_lt_range.filter _)
  rw [outlet, outlet]
  omega

/-- The outlets that a reply's fault words report, slot by slot and bit by bit. -/
theorem mem_reportedFaults {l slots m : Nat} {words : List Word} : m ∈ reportedFaults l slots words ↔
    ∃ i b, i < slots ∧ b < 16 ∧ (words.getD i 0).getLsbD b = true ∧ m = l * 1024 + i * 16 + b := by
  simp only [reportedFaults, List.mem_map, List.mem_filter, List.mem_range, outlet]
  constructor
  · rintro ⟨pos, ⟨hpos, hbit⟩, rfl⟩
    exact ⟨pos / 16, pos % 16, by omega, by omega, hbit, by omega⟩
  · rintro ⟨i, b, hi, hb, hbit, rfl⟩
    have hdiv : (i * 16 + b) / 16 = i := by omega
    have hmod : (i * 16 + b) % 16 = b := by omega
    exact ⟨i * 16 + b, ⟨by omega, by rw [hdiv, hmod]; exact hbit⟩, by omega⟩

/-! ### The reply judged (R154) -/

theorem replyGood_iff {n : Nat} {words : List Word} :
    replyGood n words = true ↔ n + 1 ≤ words.length ∧ words.getD n 0 = checkWord (words.take n) := by
  rw [replyGood, Bool.and_eq_true, decide_eq_true_eq, beq_iff_eq]

/-- The link as a missed reply leaves it. -/
def missedLink (x : Link) : Link :=
  { x with
    miss := min 15 (x.miss + 1)
    state := if x.state = .up ∧ x.entry.downThreshold ≤ min 15 (x.miss + 1) then .down else x.state }

/-- The link as a good reply leaves it. -/
def heardLink (x : Link) : Link :=
  { x with miss := 0, state := if x.state = .down then .up else x.state }

/-- The link as the judged reply leaves it. -/
def judgedLink (good : Bool) (x : Link) : Link :=
  if good then heardLink x else missedLink x

theorem judgedLink_kept (good : Bool) (x : Link) :
    (judgedLink good x).entry = x.entry ∧ (judgedLink good x).serving = x.serving
      ∧ (judgedLink good x).served = x.served ∧ (judgedLink good x).latch = x.latch
      ∧ (judgedLink good x).lastSent = x.lastSent ∧ (judgedLink good x).startWaits = x.startWaits
      ∧ (judgedLink good x).period = x.period ∧ (judgedLink good x).keepAlive = x.keepAlive := by
  cases good <;> exact ⟨rfl, rfl, rfl, rfl, rfl, rfl, rfl, rfl⟩

theorem judgedLink_not_idle {good : Bool} {x : Link} (h : x.state ≠ .idle) : (judgedLink good x).state ≠ .idle := by
  cases good
  · change (missedLink x).state ≠ .idle
    rw [missedLink]
    dsimp only
    split
    · decide
    · exact h
  · change (heardLink x).state ≠ .idle
    rw [heardLink]
    dsimp only
    split
    · decide
    · exact h

theorem missedReply_eq (s : State) (l : Nat) : missedReply s l =
    (if (linkAt s l).state = .up ∧ (linkAt s l).entry.downThreshold ≤ min 15 ((linkAt s l).miss + 1) then
      raise (setLink (bump s (.repliesMissed l)) l (missedLink (linkAt s l))) .linkDown (.number l)
    else setLink (bump s (.repliesMissed l)) l (missedLink (linkAt s l))) := by
  unfold missedReply missedLink
  simp only [linkAt_bump]
  split
  · next h => exact if_pos h
  · next h => exact if_neg h

section Judged

variable (s : State) {l : Nat} (words : List Word)

theorem judgeReply_missed (h : replyGood (linkAt s l).entry.slots words = false) :
    judgeReply s l words = missedReply s l := by
  rw [judgeReply, h]
  rfl

theorem judgeReply_heard (h : replyGood (linkAt s l).entry.slots words = true) :
    judgeReply s l words =
      (reportedFaults l (linkAt s l).entry.slots words).foldl addFault (setLink s l (heardLink (linkAt s l))) := by
  rw [judgeReply, h]
  rfl

theorem linkAt_judgeReply (hl : l < 4) :
    linkAt (judgeReply s l words) l = judgedLink (replyGood (linkAt s l).entry.slots words) (linkAt s l) := by
  cases h : replyGood (linkAt s l).entry.slots words with
  | false =>
    rw [judgeReply_missed s words h, missedReply_eq]
    split
    · rw [linkAt_raise, linkAt_setLink_same _ hl]
      rfl
    · rw [linkAt_setLink_same _ hl]
      rfl
  | true =>
    have hlinks := (addFaults_frame (reportedFaults l (linkAt s l).entry.slots words)
      (setLink s l (heardLink (linkAt s l)))).2
    rw [judgeReply_heard s words h, linkAt, hlinks, ← linkAt, linkAt_setLink_same _ hl]
    rfl

theorem linkAt_judgeReply_ne {m : Nat} (hm : m ≠ l) : linkAt (judgeReply s l words) m = linkAt s m := by
  cases h : replyGood (linkAt s l).entry.slots words with
  | false =>
    rw [judgeReply_missed s words h, missedReply_eq]
    split
    · rw [linkAt_raise, linkAt_setLink_ne _ hm, linkAt_bump]
    · rw [linkAt_setLink_ne _ hm, linkAt_bump]
  | true =>
    have hlinks := (addFaults_frame (reportedFaults l (linkAt s l).entry.slots words)
      (setLink s l (heardLink (linkAt s l)))).2
    rw [judgeReply_heard s words h, linkAt, hlinks, ← linkAt, linkAt_setLink_ne _ hm]

end Judged

/-! ### The operation closed -/

/-- The state with the reply judged and the link's operation closed. -/
def closedState (s : State) (l : Nat) (words : List Word) : State :=
  setLink (judgeReply s l words) l (closed (linkAt (judgeReply s l words) l))

/-- The link that stands at the close. -/
def closedLink (s : State) (l : Nat) (words : List Word) : Link :=
  closed (judgedLink (replyGood (linkAt s l).entry.slots words) (linkAt s l))

theorem exec_replyPeriodClose {s : State} {l : Fin 4} (h : (linkAt s l).flight = .reply) (words : List Word) :
    exec (.replyPeriodClose l words) s = .next
      (if quiesceDone (closedState s l words) then completeQuiesce (closedState s l words)
      else frameAtClose (closedState s l words) l) :=
  if_pos h

section Closed

variable (s : State) {l : Nat} (hl : l < 4) (words : List Word)

include hl in
theorem linkAt_closedState : linkAt (closedState s l words) l = closedLink s l words := by
  rw [closedState, linkAt_setLink_same _ hl, linkAt_judgeReply s words hl]
  rfl

theorem linkAt_closedState_ne {m : Nat} (hm : m ≠ l) : linkAt (closedState s l words) m = linkAt s m := by
  rw [closedState, linkAt_setLink_ne _ hm, linkAt_judgeReply_ne s words hm]

include hl in
theorem chamberFrame_closedState : ChamberFrame s (closedState s l words) :=
  ChamberFrame.trans (onLinks_judgeReply hl words).frame rfl

include hl in
/-- The close leaves the table, the rails and the mode. -/
theorem closedState_kept : (closedState s l words).table = s.table ∧ (closedState s l words).rails = s.rails
    ∧ (closedState s l words).mode = s.mode := by
  rw [chamberFrame_closedState s hl words]
  exact ⟨rfl, rfl, rfl⟩

end Closed

theorem closed_kept (x : Link) : (closed x).entry = x.entry ∧ (closed x).miss = x.miss ∧ (closed x).state = x.state
    ∧ (closed x).flight = .free ∧ (closed x).latch = x.latch ∧ (closed x).lastSent = x.lastSent := by
  unfold closed
  split <;> exact ⟨rfl, rfl, rfl, rfl, rfl, rfl⟩

theorem closed_of_not_serving {x : Link} (h : x.serving = false) : closed x = { x with flight := .free } :=
  if_neg (by rw [h]; decide)

theorem closed_of_serving {x : Link} (h : x.serving = true) : closed x = { x with
    flight := .free, serving := false, served := true, startWaits := false, period := none, keepAlive := none } :=
  if_pos h

/-- A frame at the close is of the link alone, and leaves it sending or as it closed. -/
theorem frameAtClose_frame (u : State) (l : Nat) : frameAtClose u l = { u with links := (frameAtClose u l).links } := by
  unfold frameAtClose
  dsimp only
  split <;> rfl

theorem linkAt_frameAtClose_ne (u : State) {l m : Nat} (hm : m ≠ l) : linkAt (frameAtClose u l) m = linkAt u m := by
  unfold frameAtClose
  dsimp only
  split
  · exact linkAt_setLink_ne _ hm _
  · rfl

theorem linkAt_frameAtClose_kept (u : State) {l : Nat} (hl : l < 4) (hfree : (linkAt u l).flight = .free) :
    (linkAt (frameAtClose u l) l).miss = (linkAt u l).miss ∧ (linkAt (frameAtClose u l) l).state = (linkAt u l).state
      ∧ (linkAt (frameAtClose u l) l).flight ≠ .reply := by
  unfold frameAtClose
  dsimp only
  split
  · rw [beginFrame, linkAt_setLink_same _ hl]
    exact ⟨rfl, rfl, Flight.noConfusion⟩
  · rw [hfree]
    exact ⟨rfl, rfl, by decide⟩

/-- The image looks at the links' entries alone. -/
theorem outputImage_setLink {u : State} {l : Nat} (hl : l < 4) {x : Link} (h : x.entry = (linkAt u l).entry) :
    outputImage (setLink u l x) l = outputImage u l := by
  have hcarried : carried (setLink u l x) l = carried u l := by
    rw [carried, linkAt_setLink_same _ hl, h, carried]
  rw [outputImage, hcarried]
  rfl

theorem outputImage_frameAtClose (u : State) {l : Nat} (hl : l < 4) :
    outputImage (frameAtClose u l) l = outputImage u l := by
  unfold frameAtClose
  dsimp only
  split
  · exact outputImage_setLink hl rfl
  · rfl

/-! ### The close of an operation that does not serve the quiesce (O47) -/

/-- The frame of a link is not one whose close completes the quiesce. -/
structure PlainClose (s : State) (l : Fin 4) : Prop where
  flight : (linkAt s l).flight = .reply
  state : (linkAt s l).state ≠ .idle
  mode : s.mode = .run ∨ (s.mode = .quiescing ∧ (linkAt s l).entry.enabled = true ∧ (linkAt s l).serving = false
    ∧ (linkAt s l).served = false)

section PlainClose

variable {s : State} {l : Fin 4} (h : PlainClose s l) (words : List Word)
include h

theorem not_quiesceDone_closedState : quiesceDone (closedState s l words) = false := by
  rw [Bool.eq_false_iff, ne_eq, quiesceDone_iff]
  rintro ⟨hmode, -, hserved⟩
  rw [(closedState_kept s l.isLt words).2.2] at hmode
  rcases h.mode with hrun | ⟨-, henabled, hserving, hnot⟩
  · rw [hrun] at hmode
    cases hmode
  · have hl := hserved l l.isLt
    obtain ⟨hentry, hserving', hserved', -⟩ := judgedLink_kept (replyGood (linkAt s l).entry.slots words) (linkAt s l)
    rw [linkAt_closedState s l.isLt words, closedLink, closed_of_not_serving (hserving'.trans hserving)] at hl
    dsimp only at hl
    rw [hentry, hserved', henabled, hnot] at hl
    rcases hl with hl | hl <;> cases hl

theorem exec_replyPeriodClose_plain :
    exec (.replyPeriodClose l words) s = .next (frameAtClose (closedState s l words) l) := by
  rw [exec_replyPeriodClose h.flight, not_quiesceDone_closedState h]
  rfl

omit h in
theorem linkAt_plainClose :
    let t := frameAtClose (closedState s l words) l
    (linkAt t l).miss = (judgedLink (replyGood (linkAt s l).entry.slots words) (linkAt s l)).miss
      ∧ (linkAt t l).state = (judgedLink (replyGood (linkAt s l).entry.slots words) (linkAt s l)).state
      ∧ (linkAt t l).flight ≠ .reply := by
  obtain ⟨-, hmiss, hstate, hfree, -⟩ := closed_kept (judgedLink (replyGood (linkAt s l).entry.slots words) (linkAt s l))
  have hclosed := linkAt_closedState s l.isLt words
  have hkept := linkAt_frameAtClose_kept (closedState s l words) l.isLt (by rw [hclosed]; exact hfree)
  rw [hclosed, closedLink, hmiss, hstate] at hkept
  exact hkept

omit h in
/-- Beyond its links the state is that of the judged reply. -/
theorem plainClose_kept :
    let t := frameAtClose (closedState s l words) l
    let j := judgeReply s l words
    t.faults = j.faults ∧ t.counters = j.counters ∧ t.pendingCauses = j.pendingCauses ∧ t.details = j.details
      ∧ t.firstCause = j.firstCause ∧ t.table = s.table ∧ t.rails = s.rails ∧ t.mode = s.mode := by
  have hkept := closedState_kept s l.isLt words
  intro t
  dsimp only
  have ht : t = _ := frameAtClose_frame (closedState s l words) l
  rw [ht]
  exact ⟨rfl, rfl, rfl, rfl, rfl, hkept⟩

theorem plainClose_missed (hbad : replyGood (linkAt s l).entry.slots words = false) :
    ∃ t, exec (.replyPeriodClose l words) s = .next t
      ∧ (linkAt t l).miss = min 15 ((linkAt s l).miss + 1)
      ∧ counterAt t (.repliesMissed l.val) = countUp (counterAt s (.repliesMissed l.val))
      ∧ t.faults = s.faults ∧ (linkAt t l).flight ≠ .reply
      ∧ ((linkAt s l).state = .up → (linkAt s l).entry.downThreshold ≤ min 15 ((linkAt s l).miss + 1) →
          (linkAt t l).state = .down ∧ t.pendingCauses.getLsbD 0 = true ∧ look t.details 0 .none = .number l.val)
      ∧ ((linkAt s l).state = .down ∨ min 15 ((linkAt s l).miss + 1) < (linkAt s l).entry.downThreshold →
          (linkAt t l).state = (linkAt s l).state ∧ t.pendingCauses = s.pendingCauses)
      ∧ t.table = s.table ∧ t.rails = s.rails ∧ t.mode = s.mode := by
  obtain ⟨hmiss, hstate, hflight⟩ := linkAt_plainClose words
  obtain ⟨hfaults, hcounters, hpending, hdetails, -, hrest⟩ := plainClose_kept words
  rw [judgeReply_missed s words hbad, missedReply_eq] at hfaults hcounters hpending hdetails
  rw [hbad] at hmiss hstate
  refine ⟨_, exec_replyPeriodClose_plain h words, hmiss, ?_, ?_, hflight, fun hup hthreshold => ?_, fun hstays => ?_, hrest⟩
  · rw [counterAt, hcounters]
    split <;> exact counterAt_bump_same (place_lt fun m hm => by rcases hm with hm | hm <;> cases hm; exact l.isLt) s
  · rw [hfaults]
    split <;> rfl
  · have hdown := And.intro hup hthreshold
    rw [hstate, hpending, hdetails, if_pos hdown]
    exact ⟨if_pos hdown, pending_raise_same _ .linkDown _, details_raise_same _ .linkDown _⟩
  · have hno : ¬ ((linkAt s l).state = .up ∧ (linkAt s l).entry.downThreshold ≤ min 15 ((linkAt s l).miss + 1)) := by
      rintro ⟨hup, hthreshold⟩
      rcases hstays with hdown | hlt
      · rw [hup] at hdown
        cases hdown
      · exact absurd hthreshold (Nat.not_le.2 hlt)
    rw [hstate, hpending, if_neg hno]
    exact ⟨if_neg hno, rfl⟩

theorem plainClose_heard (hgood : replyGood (linkAt s l).entry.slots words = true) :
    let reported (m : Nat) : Prop := ∃ i b, i < (linkAt s l).entry.slots ∧ b < 16
      ∧ (words.getD i 0).getLsbD b = true ∧ m = l.val * 1024 + i * 16 + b
    ∃ t, exec (.replyPeriodClose l words) s = .next t
      ∧ (linkAt t l).miss = 0 ∧ (linkAt t l).state = .up ∧ (linkAt t l).flight ≠ .reply
      ∧ (∀ m, m ∈ t.faults ↔ m ∈ s.faults ∨ reported m)
      ∧ (∀ m, reported m → m ∉ s.faults → (∀ k, reported k → k ∉ s.faults → k ≤ m) →
          t.pendingCauses.getLsbD 1 = true ∧ look t.details 1 .none = .number m)
      ∧ ((∀ m, reported m → m ∈ s.faults) →
          t.pendingCauses = s.pendingCauses ∧ t.details = s.details ∧ t.firstCause = s.firstCause)
      ∧ (∀ b, b ≠ 1 → t.pendingCauses.getLsbD b = s.pendingCauses.getLsbD b
          ∧ look t.details b .none = look s.details b .none)
      ∧ t.table = s.table ∧ t.rails = s.rails ∧ t.mode = s.mode := by
  intro reported
  obtain ⟨hmiss, hstate, hflight⟩ := linkAt_plainClose words
  obtain ⟨hfaults, -, hpending, hdetails, hfirst, hrest⟩ := plainClose_kept words
  rw [judgeReply_heard s words hgood] at hfaults hpending hdetails hfirst
  rw [hgood] at hmiss hstate
  have hreported (m : Nat) : m ∈ reportedFaults l (linkAt s l).entry.slots words ↔ reported m := mem_reportedFaults
  have hup : (heardLink (linkAt s l)).state = .up := by
    have hidle := h.state
    change (if (linkAt s l).state = .down then LinkState.up else (linkAt s l).state) = .up
    cases hs : (linkAt s l).state <;> simp_all
  refine ⟨_, exec_replyPeriodClose_plain h words, hmiss, hstate.trans hup, hflight, fun m => ?_,
    fun m hm hnew hmax => ?_, fun hall => ?_, fun b hb => ?_, hrest⟩
  · rw [hfaults, mem_faults_addFaults, hreported]
    rfl
  · rw [hpending, hdetails]
    exact addFaults_raises (reportedFaults_pairwise l _ words) ((hreported m).2 hm) hnew
      fun k hk => hmax k ((hreported k).1 hk)
  · rw [hpending, hdetails, hfirst,
      addFaults_of_mem (s := setLink s l (heardLink (linkAt s l))) fun m hm => hall m ((hreported m).1 hm)]
    exact ⟨rfl, rfl, rfl⟩
  · rw [hpending, hdetails]
    exact addFaults_other_causes _ _ hb

end PlainClose

/-! ### What begins at the close (R152, R153) -/

/-- A frame that waited, or that the image asks for, begins at the close. -/
def BeginsAtClose (s : State) (l : Nat) (u : State) : Prop :=
  (linkAt s l).entry.mode = .periodic ∧ (linkAt s l).startWaits = true
    ∨ (linkAt s l).entry.mode = .onDemand ∧ outputImage u l ≠ (linkAt s l).lastSent

section Begins

variable {s : State} {l : Fin 4} (words : List Word) (hserving : (linkAt s l).serving = false)
include hserving

/-- What stands at a close that does not serve the quiesce. -/
theorem closedLink_open : closedLink s l words =
    { judgedLink (replyGood (linkAt s l).entry.slots words) (linkAt s l) with flight := .free } := by
  obtain ⟨-, hsame, -⟩ := judgedLink_kept (replyGood (linkAt s l).entry.slots words) (linkAt s l)
  exact closed_of_not_serving (hsame.trans hserving)

/-- It has the frame, the timers and the wait that it had. -/
theorem closedLink_open_kept :
    (closedLink s l words).entry = (linkAt s l).entry ∧ (closedLink s l words).flight = .free
      ∧ (closedLink s l words).served = (linkAt s l).served ∧ (closedLink s l words).latch = (linkAt s l).latch
      ∧ (closedLink s l words).lastSent = (linkAt s l).lastSent
      ∧ (closedLink s l words).startWaits = (linkAt s l).startWaits
      ∧ (closedLink s l words).period = (linkAt s l).period
      ∧ (closedLink s l words).keepAlive = (linkAt s l).keepAlive := by
  obtain ⟨hentry, -, hserved, hlatch, hlast, hwaits, hperiod, hkeep⟩ :=
    judgedLink_kept (replyGood (linkAt s l).entry.slots words) (linkAt s l)
  rw [closedLink_open words hserving]
  exact ⟨hentry, rfl, hserved, hlatch, hlast, hwaits, hperiod, hkeep⟩

/-- A frame at the close serves the quiesce when it begins in QUIESCING with the table empty. -/
def servesQuiesce (s : State) : Bool :=
  s.mode == .quiescing && tableEmpty s

omit hserving in
theorem servesQuiesce_closedState : servesQuiesce (closedState s l words) = servesQuiesce s := by
  obtain ⟨htable, -, hmode⟩ := closedState_kept s l.isLt words
  rw [servesQuiesce, hmode, tableEmpty, htable]
  rfl

variable (hstate : (linkAt s l).state ≠ .idle) (hserved : (linkAt s l).served = false)
include hstate hserved

theorem canBegin_closedState : canBegin (linkAt (closedState s l words) l) = true := by
  obtain ⟨-, hfree, hsame, -⟩ := closedLink_open_kept words hserving
  obtain ⟨-, -, hclosed, -⟩ := closed_kept (judgedLink (replyGood (linkAt s l).entry.slots words) (linkAt s l))
  rw [linkAt_closedState s l.isLt words, canBegin_iff]
  refine ⟨?_, hfree, hsame.trans hserved⟩
  rw [closedLink, hclosed]
  exact judgedLink_not_idle hstate

/-- The link and the image where a frame begins at the close. -/
theorem frameAtClose_begins (hbegins : BeginsAtClose s l (closedState s l words)) :
    let t := frameAtClose (closedState s l words) l
    linkAt t l = begun (closedLink s l words) (outputImage t l) (servesQuiesce s) := by
  have hlink := linkAt_closedState s l.isLt words
  obtain ⟨hentry, -, -, -, hlast, hwaits, -⟩ := closedLink_open_kept words hserving
  have hasks : frameAtClose (closedState s l words) l = beginFrame (closedState s l words) l := by
    refine if_pos ?_
    rw [canBegin_closedState words hserving hstate hserved, imageChanged, hlink, hentry, hwaits, hlast]
    rcases hbegins with ⟨hmode, hwait⟩ | ⟨hmode, hchanged⟩
    · rw [hmode, hwait]
      rfl
    · rw [hmode, bne_iff_ne.2 hchanged]
      rfl
  intro t
  have ht : t = _ := hasks
  rw [ht, beginFrame, linkAt_setLink_same _ l.isLt, outputImage_setLink l.isLt (by rfl), hlink,
    ← servesQuiesce_closedState words]
  rfl

omit hstate hserved in
/-- And where none does. -/
theorem frameAtClose_rests (hrests : ¬ BeginsAtClose s l (closedState s l words)) :
    frameAtClose (closedState s l words) l = closedState s l words := by
  have hlink := linkAt_closedState s l.isLt words
  obtain ⟨hentry, -, -, -, hlast, hwaits, -⟩ := closedLink_open_kept words hserving
  refine if_neg fun hasks => hrests ?_
  rw [imageChanged, hlink, hentry, hwaits, hlast, Bool.and_eq_true, Bool.or_eq_true, Bool.and_eq_true, Bool.and_eq_true,
    beq_iff_eq, beq_iff_eq, bne_iff_ne] at hasks
  exact hasks.2

theorem close_begins_or_rests :
    let t := frameAtClose (closedState s l words) l
    (∀ m, m < 4 → m ≠ l.val → linkAt t m = linkAt s m)
      ∧ ((linkAt s l).entry.mode = .periodic → (linkAt s l).startWaits = true →
          (linkAt t l).flight = .sending ∧ (linkAt t l).latch = outputImage t l
            ∧ (linkAt t l).lastSent = outputImage t l ∧ (linkAt t l).startWaits = false
            ∧ (linkAt t l).period = some (linkAt s l).entry.period
            ∧ (linkAt t l).serving = (s.mode == .quiescing && tableEmpty s))
      ∧ ((linkAt s l).entry.mode = .periodic → (linkAt s l).startWaits = false →
          (linkAt t l).flight = .free ∧ (linkAt t l).latch = (linkAt s l).latch
            ∧ (linkAt t l).period = (linkAt s l).period)
      ∧ ((linkAt s l).entry.mode = .onDemand → outputImage t l ≠ (linkAt s l).lastSent →
          (linkAt t l).flight = .sending ∧ (linkAt t l).latch = outputImage t l
            ∧ (linkAt t l).lastSent = outputImage t l
            ∧ (linkAt t l).keepAlive = some (linkAt s l).entry.keepAlive
            ∧ (linkAt t l).serving = (s.mode == .quiescing && tableEmpty s))
      ∧ ((linkAt s l).entry.mode = .onDemand → outputImage t l = (linkAt s l).lastSent →
          (linkAt t l).flight = .free ∧ (linkAt t l).latch = (linkAt s l).latch
            ∧ (linkAt t l).keepAlive = (linkAt s l).keepAlive) := by
  intro t
  have himage : outputImage t l = outputImage (closedState s l words) l := outputImage_frameAtClose _ l.isLt
  obtain ⟨hentry, hfree, -, hlatch, -, -, hperiod, hkeep⟩ := closedLink_open_kept words hserving
  have hrest (h : ¬ BeginsAtClose s l (closedState s l words)) : linkAt t l = closedLink s l words := by
    have ht : t = _ := frameAtClose_rests words hserving h
    rw [ht, linkAt_closedState s l.isLt words]
  refine ⟨fun m _ hm => ?_, fun hmode hwaits => ?_, fun hmode hwaits => ?_, fun hmode hchanged => ?_, fun hmode hsame => ?_⟩
  · exact (linkAt_frameAtClose_ne _ hm).trans (linkAt_closedState_ne s words hm)
  · rw [show linkAt t l = _ from frameAtClose_begins words hserving hstate hserved (.inl ⟨hmode, hwaits⟩), begun, hentry, hmode]
    exact ⟨rfl, rfl, rfl, rfl, rfl, rfl⟩
  · rw [hrest]
    · exact ⟨hfree, hlatch, hperiod⟩
    · rintro (⟨-, hw⟩ | ⟨hm, -⟩)
      · rw [hwaits] at hw
        cases hw
      · rw [hmode] at hm
        cases hm
  · have hbegins : BeginsAtClose s l (closedState s l words) := .inr ⟨hmode, himage ▸ hchanged⟩
    rw [show linkAt t l = _ from frameAtClose_begins words hserving hstate hserved hbegins, begun, hentry, hmode]
    exact ⟨rfl, rfl, rfl, rfl, rfl⟩
  · rw [hrest]
    · exact ⟨hfree, hlatch, hkeep⟩
    · rintro (⟨hm, -⟩ | ⟨-, hc⟩)
      · rw [hmode] at hm
        cases hm
      · exact hc (himage ▸ hsame)

end Begins

/-- Settles O47: the judged reply, and the frame that its close begins. -/
theorem replyMovesMissCountStateAndFaults : Obligations.ReplyMovesMissCountStateAndFaults := by
  unfold Obligations.ReplyMovesMissCountStateAndFaults
  intro s l words hflight hstate hmode n reported
  have h : PlainClose s l := ⟨hflight, hstate, hmode⟩
  refine ⟨fun hbad => plainClose_missed h words ?_, fun hlength hcheck => plainClose_heard h words ?_,
    fun hserving hserved => ⟨_, exec_replyPeriodClose_plain h words, close_begins_or_rests words hserving hstate hserved⟩⟩
  · rw [Bool.eq_false_iff, ne_eq, replyGood_iff]
    rintro ⟨hlength, hcheck⟩
    exact hbad.elim (fun hshort => absurd hlength (Nat.not_le.2 hshort)) fun hno => hno hcheck
  · exact replyGood_iff.2 ⟨hlength, hcheck⟩

/-! ### The reply that serves the quiesce (R166) -/

section Serving

variable {s : State} {l : Fin 4} (words : List Word) (hserving : (linkAt s l).serving = true)
include hserving

theorem linkAt_closedState_serving :
    (linkAt (closedState s l words) l).flight = .free ∧ (linkAt (closedState s l words) l).served = true
      ∧ (linkAt (closedState s l words) l).period = none ∧ (linkAt (closedState s l words) l).keepAlive = none := by
  obtain ⟨-, hsame, -⟩ := judgedLink_kept (replyGood (linkAt s l).entry.slots words) (linkAt s l)
  rw [linkAt_closedState s l.isLt words, closedLink, closed_of_serving (hsame.trans hserving)]
  exact ⟨rfl, rfl, rfl, rfl⟩

theorem frameAtClose_serving : frameAtClose (closedState s l words) l = closedState s l words := by
  obtain ⟨-, hserved, -⟩ := linkAt_closedState_serving words hserving
  refine if_neg ?_
  rw [canBegin, hserved]
  simp

/-- A link that has served begins no further frame. -/
theorem exec_of_served {c : Instr}
    (hc : c = .periodTimerExpiry l ∨ c = .keepAliveExpiry l ∨ c = .onDemandFrameStart l) :
    exec c (closedState s l words) = .next (closedState s l words) := by
  obtain ⟨-, hserved, hperiod, hkeep⟩ := linkAt_closedState_serving words hserving
  rcases hc with rfl | rfl | rfl
  · refine if_pos ?_
    rw [hperiod]
    rfl
  · refine if_neg ?_
    rw [hkeep]
    simp
  · refine if_neg ?_
    rw [canBegin, hserved]
    simp

theorem quiesceDone_closedState_iff (hmode : s.mode = .quiescing) (hempty : tableEmpty s = true) :
    quiesceDone (closedState s l words) = true ↔
      ∀ m, m < 4 → m ≠ l.val → (linkAt s m).entry.enabled = false ∨ (linkAt s m).served = true := by
  obtain ⟨htable, -, hsame⟩ := closedState_kept s l.isLt words
  obtain ⟨-, hserved, -⟩ := linkAt_closedState_serving words hserving
  rw [quiesceDone_iff]
  constructor
  · rintro ⟨-, -, hall⟩ m hm hne
    rw [← linkAt_closedState_ne s words hne]
    exact hall m hm
  · intro hothers
    refine ⟨hsame.trans hmode, fun i => ?_, fun m hm => ?_⟩
    · rw [recordAt, htable, ← recordAt]
      exact (tableEmpty_iff s).1 hempty i
    · by_cases hne : m = l.val
      · rw [hne]
        exact .inr hserved
      · rw [linkAt_closedState_ne s words hne]
        exact hothers m hm hne

end Serving

/-- Settles O48: the last serving reply completes the quiesce, and any other leaves its link to rest. -/
theorem lastServingReplyCompletesTheQuiesce : Obligations.LastServingReplyCompletesTheQuiesce := by
  unfold Obligations.LastServingReplyCompletesTheQuiesce
  intro s l words hmode hempty hflight hserving
  have hdone := quiesceDone_closedState_iff words hserving hmode hempty
  refine ⟨_, exec_replyPeriodClose hflight words, fun hothers => ?_, fun m hm hne henabled hnot => ?_⟩
  · rw [if_pos (hdone.2 hothers)]
    exact completeQuiesce_reports _
  · have hopen : ¬ quiesceDone (closedState s l words) = true := by
      rw [hdone]
      intro hall
      rcases hall m hm hne with h | h
      · rw [henabled] at h
        cases h
      · rw [hnot] at h
        cases h
    obtain ⟨hfree, hserved, -⟩ := linkAt_closedState_serving words hserving
    rw [if_neg hopen, frameAtClose_serving words hserving]
    exact ⟨(closedState_kept s l.isLt words).2.2.trans hmode, hserved, hfree, fun c => exec_of_served words hserving⟩

end Sys2Proof.Proofs.ChamberLinks
end

section
/-! PROOFS. The transactions of the service port (R159, R162, R177): a request transaction is read back by its code and
parameters, and every well-formed command by the transaction it is sent in (O53). -/

namespace Sys2Proof.Proofs.Transactions

open Sys2Proof.Machine Sys2Proof.Proofs.Reads

/-- The parameters and the check byte behind the length byte. -/
theorem goodRequest_encoded {code : Byte} {params : List Byte} (h : params.length ≤ 255) :
    goodRequest (code :: BitVec.ofNat 8 params.length ::
      (params ++ [checkByte (code :: BitVec.ofNat 8 params.length :: params)])) = true := by
  have hlength : (BitVec.ofNat 8 params.length).toNat = params.length := toNat_byte (by omega)
  rw [goodRequest, hlength, List.take_left, List.getD_append_right _ _ _ _ (Nat.le_refl _), Nat.sub_self]
  simp

/-- A good request is read by its code and its parameters. -/
theorem decodeTransaction_request {code : Byte} {params : List Byte} (h : params.length ≤ 255) :
    decodeTransaction (requestTransaction code params) = decodeRequest code params := by
  have hlength : (BitVec.ofNat 8 params.length).toNat = params.length := toNat_byte (by omega)
  change decodeAfterOpening (code :: BitVec.ofNat 8 params.length ::
    (params ++ [checkByte (code :: BitVec.ofNat 8 params.length :: params)])) = _
  rw [decodeAfterOpening, goodRequest_encoded h, if_pos rfl, hlength, List.take_left]

theorem length_le_of_fits {before : Nat} {params : List Byte} (h : fits before params = true) :
    before + params.length ≤ 255 := of_decide_eq_true h

theorem decodeTableWrite_beyond {params rest : List Byte} {n : Nat} (h : 11 < n) :
    decodeTableWrite params rest n = .unknownRequest 0x11 params := by
  unfold decodeTableWrite
  split <;> first | omega | rfl

theorem decodeReadStatus_beyond {params rest : List Byte} {n : Nat} (h : 5 < n) :
    decodeReadStatus params rest n = .unknownRequest 0x50 params := by
  unfold decodeReadStatus
  split <;> first | omega | rfl

theorem decodeClearFault_beyond {params rest : List Byte} {n : Nat} (h : 1 < n) :
    decodeClearFault params rest n = .unknownRequest 0x81 params := by
  unfold decodeClearFault
  split <;> first | omega | rfl

/-- A code and parameters that no other command claims. -/
theorem decodeRequest_unclaimed {code : Byte} {params : List Byte} (h : unclaimed code params = true) :
    decodeRequest code params = .unknownRequest code params := by
  have hcode {n : Nat} (hn : n < 256) (hc : code.toNat = n) : code = BitVec.ofNat 8 n :=
    BitVec.eq_of_toNat_eq (hc.trans (toNat_byte hn).symm)
  unfold unclaimed at h
  split at h
  · next hc =>
    have hleading := of_decide_eq_true h
    rw [decodeRequest, hc, hcode (by decide) hc]
    exact decodeTableWrite_beyond hleading
  split at h
  · next hc =>
    have hleading := of_decide_eq_true h
    rw [decodeRequest, hc, hcode (by decide) hc]
    exact decodeReadStatus_beyond hleading
  split at h
  · next hc =>
    have hleading := of_decide_eq_true h
    rw [decodeRequest, hc, hcode (by decide) hc]
    exact decodeClearFault_beyond hleading
  · next htable hstatus hfault =>
    unfold decodeRequest
    split
    case h_21 => rfl
    all_goals
      next hc =>
      rw [hc] at h htable hstatus hfault
      exfalso
      revert h htable hstatus hfault
      decide

theorem decodeTransaction_void {bytes : List Byte} (h : (leading bytes != 1 && leading bytes != 2) = true) :
    decodeTransaction bytes = .voidTransaction bytes := by
  cases bytes with
  | nil => rfl
  | cons b rest =>
    rw [Bool.and_eq_true, bne_iff_ne, bne_iff_ne] at h
    obtain ⟨hone, htwo⟩ := h
    rw [decodeTransaction, if_neg fun hb => hone (by rw [hb]; rfl), if_neg fun hb => htwo (by rw [hb]; rfl)]

theorem decodeTransaction_check_failed {bytes : List Byte} (h : (!goodRequest bytes) = true) :
    decodeTransaction (0x01#8 :: bytes) = .requestCheckFailed bytes := by
  have hbad : ¬ goodRequest bytes = true := by simpa using h
  change decodeAfterOpening bytes = _
  unfold decodeAfterOpening
  split
  · exact if_neg hbad
  · rfl

theorem decodeTransaction_fetch (n : Nat) : decodeTransaction (0x02#8 :: List.replicate n 0xFF#8) = .fetch n := by
  change Instr.fetch (List.replicate n 0xFF#8).length = _
  rw [List.length_replicate]

/-- Settles O53: the four kinds of transaction, a request's by its row of the code table. -/
theorem transactionsReadBackAsTheirCommand : Obligations.TransactionsReadBackAsTheirCommand := by
  unfold Obligations.TransactionsReadBackAsTheirCommand
  intro c bytes hformed hencode
  have plain {code : Byte} {params : List Byte} (hfits : fits 0 params = true)
      (hb : requestTransaction code params = bytes) : decodeTransaction bytes = decodeRequest code params := by
    rw [← hb, decodeTransaction_request (by have := length_le_of_fits hfits; omega)]
  have chosen {code b : Byte} {params : List Byte} (hfits : fits 1 params = true)
      (hb : requestTransaction code (b :: params) = bytes) :
      decodeTransaction bytes = decodeRequest code (b :: params) := by
    rw [← hb, decodeTransaction_request (by have := length_le_of_fits hfits; rw [List.length_cons]; omega)]
  cases c
  case voidTransaction =>
    obtain rfl := Option.some.inj hencode
    exact decodeTransaction_void hformed
  case requestCheckFailed =>
    obtain rfl := Option.some.inj hencode
    exact decodeTransaction_check_failed hformed
  case unknownRequest =>
    obtain ⟨hunclaimed, hfits⟩ := Bool.and_eq_true_iff.1 hformed
    exact (plain hfits (Option.some.inj hencode)).trans (decodeRequest_unclaimed hunclaimed)
  case fetch =>
    obtain rfl := Option.some.inj hencode
    exact decodeTransaction_fetch _
  case tableRead | start | stop | restart | allClear | recallPiston | setLevel | lookup | nextRecord | silence
      | readAttention | clearAttention | writeAttentionEnable | readCounters | clearCounters | readDirty | nextFault =>
    exact plain hformed (Option.some.inj hencode)
  case tableWriteRank | tableWriteStop | tableWriteSlotMap | tableWriteReturnMap | tableWritePort | tableWriteLink
      | tableWriteRail | tableWriteGrant | tableWriteCombination | tableWriteCrescendo | tableWriteExpression
      | tableWriteMute | readStatusPort | readStatusRail | readStatusLink | readStatusExpression | readStatusStopSets
      | readStatusMode | clearFaultOne | clearFaultAll =>
    exact chosen hformed (Option.some.inj hencode)
  all_goals cases hencode

end Sys2Proof.Proofs.Transactions
end

section
/-! PROOFS. What the accepted image says of keys and tabs (R89, R129), and the registration's rules from it: key events
(R83, R90, R91; O33), the effective set and tab events (R85, R86; O36), and a change of the effective set (R87 to R89,
R97; O37). -/

namespace Sys2Proof.Proofs.KeysAndTabs

open Sys2Proof.Machine Sys2Proof.Proofs.Claims Sys2Proof.Proofs.PortLoss Sys2Proof.Proofs.Registration
open Sys2Proof.Proofs.Pistons Sys2Proof.Proofs.Releases Sys2Proof.Proofs.Changes

/-! ### Contacts that read made (R89, R129) -/

/-- The contact of a key below the compass is mapped. -/
theorem keyMade_iff {c : ConsolePort} {d k : Nat} {t : Touch} (hk : k < Config.compass d) :
    keyMade c d t k = true ↔ KeyReadsMade c d t k := by
  rw [keyMade, anyMade_iff]
  refine exists_congr fun i => exists_congr fun b => and_congr_right fun _ => and_congr_right fun _ => ?_
  simp only [isKey, mappedBy, Bool.and_eq_true, beq_iff_eq]
  constructor
  · rintro ⟨-, ⟨⟨⟨hkind, hdivision⟩, htouch⟩, hkey⟩, himage⟩
    exact ⟨hkind, hdivision, htouch, hkey, himage⟩
  · rintro ⟨hkind, hdivision, htouch, hkey, himage⟩
    refine ⟨?_, ⟨⟨⟨hkind, hdivision⟩, htouch⟩, hkey⟩, himage⟩
    rw [hkind, hdivision, hkey]
    exact decide_eq_true hk

theorem tabMade_iff {c : ConsolePort} {n : Nat} (hn : n < 256) : tabMade c n = true ↔ TabReadsMade c n := by
  rw [tabMade, anyMade_iff]
  refine exists_congr fun i => exists_congr fun b => and_congr_right fun _ => and_congr_right fun _ => ?_
  simp only [isTab, mappedBy, Bool.and_eq_true, beq_iff_eq]
  constructor
  · rintro ⟨-, ⟨hkind, htab⟩, himage⟩
    exact ⟨hkind, htab, himage⟩
  · rintro ⟨hkind, htab, himage⟩
    refine ⟨?_, ⟨hkind, htab⟩, himage⟩
    rw [hkind, htab]
    exact decide_eq_true (by omega)

theorem mem_frameContacts {c : ConsolePort} {x : Nat × Nat} :
    x ∈ frameContacts c ↔ x.1 < c.entry.dataSlots ∧ x.2 < 16 := by
  simp only [frameContacts, List.mem_flatMap, List.mem_map, List.mem_range]
  constructor
  · rintro ⟨i, hi, b, hb, rfl⟩
    exact ⟨hi, hb⟩
  · rintro ⟨hi, hb⟩
    exact ⟨x.1, hi, x.2, hb, rfl⟩

theorem hasTab_iff {c : ConsolePort} {n : Nat} (hn : n < 256) : hasTab c n = true ↔ TabMapped c n := by
  simp only [hasTab, List.any_eq_true, mem_frameContacts, mapped, isTab, mappedBy, Bool.and_eq_true, decide_eq_true_eq,
    beq_iff_eq]
  constructor
  · rintro ⟨x, ⟨hi, hb⟩, -, hkind, htab⟩
    exact ⟨x.1, x.2, hi, hb, hkind, htab⟩
  · rintro ⟨i, b, hi, hb, hkind, htab⟩
    refine ⟨(i, b), ⟨hi, hb⟩, ⟨hi, ?_⟩, hkind, htab⟩
    dsimp only
    rw [hkind, htab]
    exact decide_eq_true (by omega)

/-- An ascending list is the one ascending list of its members. -/
theorem eq_filter_range_of_pairwise {ns : List Nat} {m : Nat} {f : Nat → Bool} (hasc : ns.Pairwise (· < ·))
    (hmem : ∀ n, n ∈ ns ↔ n < m ∧ f n = true) : ns = (List.range m).filter f := by
  refine hasc.eq_of_mem_iff (List.pairwise_lt_range.filter _) fun n => ?_
  rw [hmem, List.mem_filter, List.mem_range]

/-- The made keys of a division, as the statements list them. -/
theorem keysMade_eq {c : ConsolePort} {d : Nat} {t : Touch} {ks : List Nat} (hasc : ks.Pairwise (· < ·))
    (hmem : ∀ k, k ∈ ks ↔ k < Config.compass d ∧ KeyReadsMade c d t k) : keysMade c d t = ks := by
  refine (eq_filter_range_of_pairwise hasc fun k => (hmem k).trans ?_).symm
  exact and_congr_right fun hk => (keyMade_iff hk).symm

/-! ### Key events (O33) -/

/-- What a key asks of a stop looks at the rank and stop tables alone. -/
theorem claimFor_eq_asksClaim {s u : State} (hframe : TableFrame s u) (p : PortId) (d : Nat) (t : Touch) (k n : Nat) :
    claimFor u p d t k n = asksClaim s p d t u k n := by
  have hresolve : resolve u d k n = resolve s d k n := by
    rw [hframe]
    rfl
  unfold claimFor asksClaim
  cases h : resolve s d k n with
  | none => simp only [hresolve, h]
  | some pipe =>
    obtain ⟨rank, pipe⟩ := pipe
    simp only [hresolve, h]

theorem foldl_claimFor_stops (s : State) (p : PortId) (d : Nat) (t : Touch) (k : Nat) (ns : List Nat) {u : State}
    (hframe : TableFrame s u) :
    ns.foldl (fun v n => claimFor v p d t k n) u = ns.foldl (fun v n => asksClaim s p d t v k n) u := by
  induction ns generalizing u with
  | nil => rfl
  | cons n ns ih =>
    rw [List.foldl_cons, List.foldl_cons, ← claimFor_eq_asksClaim hframe]
    exact ih (hframe.trans (tableFrame_claimFor u p d t k n))

theorem foldl_claimFor_keys (s : State) (p : PortId) (d : Nat) (t : Touch) (n : Nat) (ks : List Nat) {u : State}
    (hframe : TableFrame s u) :
    ks.foldl (fun v k => claimFor v p d t k n) u = ks.foldl (fun v k => asksClaim s p d t v k n) u := by
  induction ks generalizing u with
  | nil => rfl
  | cons k ks ih =>
    rw [List.foldl_cons, List.foldl_cons, ← claimFor_eq_asksClaim hframe]
    exact ih (hframe.trans (tableFrame_claimFor u p d t k n))

theorem holds_iff {s : State} {p : PortId} {d : Nat} : holds s p d = true ↔ granting s d = some p := beq_iff_eq

theorem answersKey_iff {s : State} {d : Nat} {t : Touch} {n : Nat} : answersKey s d t n = true ↔
    ((stopAt s n).kind = .voice ∨ (stopAt s n).kind = .fixed) ∧ (stopAt s n).division = d ∧ (stopAt s n).touch = t
      ∧ effective s n = true := by
  simp [answersKey, and_assoc]

/-- The claims of a pattern, and those it leaves. -/
theorem holdsClaim_releaseRequest_iff (s : State) {pat : Pattern} {hit : Claim → Bool}
    (hpat : ∀ i c, hits pat i c = hit c) (c : Claim) :
    HoldsClaim (releaseRequest s pat) c ↔ HoldsClaim s c ∧ hit c = false := by
  rw [holdsClaim_iff_of_releasedBy (releasedBy_releaseRequest s pat)]
  simp only [HoldsClaim, hpat, ← and_assoc, exists_and_right]

/-- Settles O33: by whether the port holds the division. -/
theorem keyEventsFollowTheGrant : Obligations.KeyEventsFollowTheGrant := by
  unfold Obligations.KeyEventsFollowTheGrant
  intro s p d touch k
  refine ⟨fun hgrant => ?_, fun hgrant => ?_⟩
  · have hholds := holds_iff.2 hgrant
    have hbreak : keyBreak s p d touch k = releaseRequest s (.key p d touch k) := if_pos hholds
    rw [hbreak]
    refine ⟨fun ns hasc hmem => ?_, releasedBy_releaseRequest s (.key p d touch k), releaseRequest_frame s _, fun c => ?_⟩
    · have hlist : ns = (List.range 256).filter (answersKey s d touch) :=
        eq_filter_range_of_pairwise hasc fun n => (hmem n).trans (and_congr_right fun _ => answersKey_iff.symm)
      rw [keyMake, if_pos hholds, playKey, ← hlist]
      exact foldl_claimFor_stops s p d touch k ns (TableFrame.refl s)
    · rw [holdsClaim_releaseRequest_iff s (hit := fun c => c.port == p && c.division == d && c.touch == touch && c.key == k)
        (fun _ _ => rfl) c]
      refine and_congr_right fun _ => ?_
      rw [← Bool.not_eq_true, Bool.and_eq_true, Bool.and_eq_true, Bool.and_eq_true, beq_iff_eq, beq_iff_eq, beq_iff_eq,
        beq_iff_eq, and_assoc, and_assoc]
  · have hnot : ¬ holds s p d = true := fun h => hgrant (holds_iff.1 h)
    exact ⟨if_neg hnot, if_neg hnot⟩

/-! ### The effective set and tab events (O36) -/

theorem crescendoMember_iff {s : State} (hone : OneCrescendoEntry s) {n : Nat} : crescendoMember s n = true ↔
    ∃ e p, e < 8 ∧ (exprAt s e).enabled = true ∧ (exprAt s e).target = .crescendo ∧ (exprAt s e).port = some p
      ∧ granting s (stopAt s n).division = some p ∧ 1 ≤ (runAt s e).stage
      ∧ (look s.crescendo ((runAt s e).stage - 1) 0).getLsbD n = true := by
  have hat {e : Nat} (he : crescendoEntry s = some e) : crescendoMember s n = true ↔
      (crescendoAt s (runAt s e).stage).getLsbD n = true ∧ (exprAt s e).port.isSome = true
        ∧ granting s (stopAt s n).division = (exprAt s e).port := by
    simp [crescendoMember, crescendoStage, crescendoPort, he, and_assoc]
  have hrecord (m : Nat) : (crescendoAt s m).getLsbD n = true ↔
      1 ≤ m ∧ (look s.crescendo (m - 1) 0).getLsbD n = true := by
    rcases m with _ | m <;> simp [crescendoAt]
  constructor
  · intro h
    cases he : crescendoEntry s with
    | none => simp [crescendoMember, crescendoPort, he] at h
    | some e =>
      obtain ⟨hmember, hsome, hgrant⟩ := (hat he).1 h
      obtain ⟨p, hp⟩ := Option.isSome_iff_exists.1 hsome
      have hentry := isCrescendoEntry_of_crescendoEntry he
      obtain ⟨henabled, htarget⟩ := isCrescendoEntry_iff.1 hentry
      exact ⟨e, p, lt_of_isCrescendoEntry hentry, henabled, htarget, hp, hgrant.trans hp, (hrecord _).1 hmember⟩
  · rintro ⟨e, p, -, henabled, htarget, hp, hgrant, hmember⟩
    have he := crescendoEntry_eq_some hone (isCrescendoEntry_iff.2 ⟨henabled, htarget⟩)
    exact (hat he).2 ⟨(hrecord _).2 hmember, by rw [hp]; rfl, hgrant.trans hp.symm⟩

theorem effective_iff {s : State} (hone : OneCrescendoEntry s) {n : Nat} : effective s n = true ↔
    s.drawn.getLsbD n = true ∨ ((stopAt s n).kind = .fixed ∧ (stopAt s n).division = 5)
      ∨ ∃ e p, e < 8 ∧ (exprAt s e).enabled = true ∧ (exprAt s e).target = .crescendo ∧ (exprAt s e).port = some p
        ∧ granting s (stopAt s n).division = some p ∧ 1 ≤ (runAt s e).stage
        ∧ (look s.crescendo ((runAt s e).stage - 1) 0).getLsbD n = true := by
  rw [effective, Bool.or_eq_true, Bool.or_eq_true, crescendoMember_iff hone, or_assoc]
  simp only [effectsFixed, Bool.and_eq_true, beq_iff_eq]

theorem driveSet_eq_false_iff {c : ConsolePort} {n : Nat} : (driveSet c).getLsbD n = false ↔
    c.recallSlot.driveOn.getLsbD n = false ∧ c.recallSlot.driveOff.getLsbD n = false := by
  rw [driveSet, BitVec.getLsbD_or, Bool.or_eq_false_iff]

/-- A change of the effective set leaves the effective set it came to. -/
theorem effectiveSet_changeEffective (claims : Bool) (before : StopSet) (s : State) :
    effectiveSet (changeEffective claims before s) = effectiveSet s := by
  have h := (butTremulants_changeEffective claims before s).effective_eq
  refine BitVec.eq_of_getLsbD_eq fun n _ => ?_
  rw [getLsbD_effectiveSet, getLsbD_effectiveSet, h]

theorem drawn_changeEffective (claims : Bool) (before : StopSet) (s : State) :
    (changeEffective claims before s).drawn = s.drawn := by
  rw [changeFrame_changeEffective claims before s]

section TabEvents

variable {s : State} {p : PortId} {n : Nat} {made : Bool}

theorem tabEvent_passed (h : (stopAt s n).kind = .unused ∨ (stopAt s n).division = 5) : tabEvent s p n made = s :=
  if_pos h

theorem tabEvent_ungranted (hkind : (stopAt s n).kind ≠ .unused) (hdivision : (stopAt s n).division ≠ 5)
    (hgrant : granting s (stopAt s n).division ≠ some p) : tabEvent s p n made = bump s (.ungranted p) := by
  have hnot : holds s p (stopAt s n).division = false := Bool.eq_false_iff.2 fun h => hgrant (holds_iff.1 h)
  rw [tabEvent, if_neg (not_or.2 ⟨hkind, hdivision⟩), if_pos hnot]
  rfl

theorem tabEvent_granted (hkind : (stopAt s n).kind ≠ .unused) (hdivision : (stopAt s n).division ≠ 5)
    (hgrant : granting s (stopAt s n).division = some p) : tabEvent s p n made =
      if (driveSet (portAt s p)).getLsbD n = true then s
      else if s.drawn.getLsbD n = made then s
      else changeEffective true (effectiveSet s) (setDrawn s (withBit s.drawn n made)) := by
  have hholds := holds_iff.2 hgrant
  rw [tabEvent, if_neg (not_or.2 ⟨hkind, hdivision⟩), if_neg (by rw [hholds]; decide)]

end TabEvents

/-- Settles O36. -/
theorem effectiveSetAndTabEvents : Obligations.EffectiveSetAndTabEvents := by
  unfold Obligations.EffectiveSetAndTabEvents
  refine ⟨fun s n hn hone => ⟨?_, effective_iff hone⟩, fun s p n made _ => ⟨tabEvent_passed, fun hkind hdivision =>
    ⟨tabEvent_ungranted hkind hdivision, fun hgrant => ?_⟩⟩⟩
  · rw [getLsbD_effectiveSet, decide_eq_true hn, Bool.true_and]
  · have htab := tabEvent_granted (made := made) hkind hdivision hgrant
    refine ⟨fun h => htab.trans ?_, fun hon hoff hchanges => ?_⟩
    · split
      · rfl
      · next hdriven =>
        obtain ⟨hon, hoff⟩ := driveSet_eq_false_iff.1 (Bool.eq_false_iff.2 hdriven)
        rw [hon, hoff] at h
        exact if_pos (by simpa using h)
    · have hfree := driveSet_eq_false_iff.2 ⟨hon, hoff⟩
      have hdriven : ¬ (driveSet (portAt s p)).getLsbD n = true := by rw [hfree]; decide
      rw [if_neg hdriven, if_neg hchanges] at htab
      rw [htab]
      exact ⟨rfl, drawn_changeEffective .., effectiveSet_changeEffective ..⟩

/-! ### A change of the effective set (O37) -/

theorem members_eq_filter {x : StopSet} {f : Nat → Bool} (h : ∀ n, n < 256 → x.getLsbD n = f n) :
    members x = (List.range 256).filter f :=
  List.filter_congr fun n hn => h n (List.mem_range.1 hn)

theorem changeEffective_eq (s : State) (before : StopSet) (claims : Bool) : changeEffective claims before s =
    ((List.range 256).filter fun n => effective s n && !before.getLsbD n).foldl (comeOn claims)
      (((List.range 256).filter fun n => before.getLsbD n && !effective s n).foldl goOff s) := by
  have hon : members (effectiveSet s &&& ~~~ before) =
      (List.range 256).filter fun n => effective s n && !before.getLsbD n :=
    members_eq_filter fun n hn => by
      rw [BitVec.getLsbD_and, BitVec.getLsbD_not, getLsbD_effectiveSet]
      simp [hn]
  have hoff : members (before &&& ~~~ effectiveSet s) =
      (List.range 256).filter fun n => before.getLsbD n && !effective s n :=
    members_eq_filter fun n hn => by
      rw [BitVec.getLsbD_and, BitVec.getLsbD_not, getLsbD_effectiveSet]
      simp [hn]
  rw [changeEffective, hon, hoff]

section OneStop

variable {s : State} {n : Nat}

theorem goOff_unused (h : (stopAt s n).kind = .unused) : goOff s n = s := by
  rw [goOff, h]

theorem comeOn_unused (h : (stopAt s n).kind = .unused) (claims : Bool) : comeOn claims s n = s := by
  rw [comeOn, h]

theorem goOff_tremulant (h : (stopAt s n).kind = .tremulant) : goOff s n = retakeTremulant s (stopAt s n).rank := by
  rw [goOff, h]

theorem comeOn_tremulant (h : (stopAt s n).kind = .tremulant) (claims : Bool) :
    comeOn claims s n = retakeTremulant s (stopAt s n).rank := by
  rw [comeOn, h]

theorem goOff_keyed (h : (stopAt s n).kind = .voice ∨ (stopAt s n).kind = .fixed) :
    goOff s n = releaseRequest s (.stop n) := by
  rcases h with h | h <;> rw [goOff, h]

theorem comeOn_keyed (h : (stopAt s n).kind = .voice ∨ (stopAt s n).kind = .fixed) (claims : Bool) :
    comeOn claims s n = if claims then claimHeldKeys s n else s := by
  rcases h with h | h <;> rw [comeOn, h]

theorem claimHeldKeys_ungranted (h : granting s (stopAt s n).division = none) : claimHeldKeys s n = s := by
  rw [claimHeldKeys, h]

theorem claimHeldKeys_granted {p : PortId} (h : granting s (stopAt s n).division = some p) {ks : List Nat}
    (hasc : ks.Pairwise (· < ·))
    (hmem : ∀ k, k ∈ ks ↔ k < Config.compass (stopAt s n).division
      ∧ KeyReadsMade (portAt s p) (stopAt s n).division (stopAt s n).touch k) :
    claimHeldKeys s n =
      ks.foldl (fun u k => asksClaim s p (stopAt s n).division (stopAt s n).touch u k n) s := by
  rw [claimHeldKeys, h]
  dsimp only
  rw [keysMade_eq hasc hmem]
  exact foldl_claimFor_keys s p _ _ n ks (TableFrame.refl s)

end OneStop

theorem retakeTremulant_other (s : State) (rank : Nat) {q : Nat} (h : q ≠ rank) :
    (retakeTremulant s rank).tremulants.getLsbD q = s.tremulants.getLsbD q := by
  rw [Bool.eq_iff_iff, getLsbD_retakeTremulant, if_neg h.symm]

/-- Settles O37. -/
theorem effectiveChangesGoOffThenComeOn : Obligations.EffectiveChangesGoOffThenComeOn := by
  unfold Obligations.EffectiveChangesGoOffThenComeOn
  refine ⟨changeEffective_eq, fun s n claims => ⟨fun h => ⟨goOff_unused h, comeOn_unused h claims⟩, fun h => ?_, fun h => ?_⟩⟩
  · rw [goOff_tremulant h, comeOn_tremulant h]
    refine ⟨rfl, rfl, fun q hq => retakeTremulant_other s _ hq, fun _ => ?_⟩
    rw [getLsbD_retakeTremulant, if_pos rfl, DueOn]
  · rw [goOff_keyed h, comeOn_keyed h, comeOn_keyed h]
    refine ⟨releasedBy_releaseRequest s (.stop n), fun c => ?_, releaseRequest_frame s _, rfl, fun hnone => ?_,
      fun p ks hgrant hasc hmem => ?_⟩
    · rw [holdsClaim_releaseRequest_iff s (hit := fun c => c.stop == n) (fun _ _ => rfl) c, beq_eq_false_iff_ne]
    · exact claimHeldKeys_ungranted hnone
    · exact claimHeldKeys_granted hgrant hasc hmem

end Sys2Proof.Proofs.KeysAndTabs
end

section
/-! PROOFS. What playing leaves of a console port and of the state (Chapters 5 to 8): the frame of a walk, the frame of
an event handed on; and the drive timer's expiry (R107; O35). -/

namespace Sys2Proof.Proofs.Console

open Sys2Proof.Machine Sys2Proof.Proofs.Claims Sys2Proof.Proofs.PortLoss Sys2Proof.Proofs.Registration
open Sys2Proof.Proofs.Pistons Sys2Proof.Proofs.Releases Sys2Proof.Proofs.Changes Sys2Proof.Proofs.KeysAndTabs
open Sys2Proof.Proofs.Reads

/-! ### The frame of a walk (R119) -/

/-- t is s but for what sounds, the drawn set and the expression runs; the ports stand. -/
def WalkFrame (s t : State) : Prop :=
  t = { s with
    drawn := t.drawn, runs := t.runs, tremulants := t.tremulants, table := t.table, rails := t.rails
    counters := t.counters, pendingCauses := t.pendingCauses, details := t.details, firstCause := t.firstCause }

theorem WalkFrame.refl (s : State) : WalkFrame s s := rfl

theorem WalkFrame.trans {s t u : State} (h : WalkFrame s t) (k : WalkFrame t u) : WalkFrame s u := by
  unfold WalkFrame at *
  rw [h] at k
  exact k

theorem walkFrame_of_changeFrame {s t : State} (h : ChangeFrame s t) : WalkFrame s t := by
  unfold WalkFrame
  rw [h]

theorem walkFrame_of_tableFrame {s t : State} (h : TableFrame s t) : WalkFrame s t :=
  walkFrame_of_changeFrame (changeFrame_of_tableFrame h)

theorem walkFrame_setRun (s : State) (e : Nat) (r : ExprRun) : WalkFrame s (setRun s e r) := rfl

theorem walkFrame_setDrawn (s : State) (x : StopSet) : WalkFrame s (setDrawn s x) := rfl

theorem walkFrame_raise (s : State) (c : Cause) (d : Detail) : WalkFrame s (raise s c d) := rfl

theorem walkFrame_changeEffective (claims : Bool) (before : StopSet) (s : State) :
    WalkFrame s (changeEffective claims before s) :=
  walkFrame_of_changeFrame (changeFrame_changeEffective claims before s)

theorem portAt_of_walkFrame {s t : State} (h : WalkFrame s t) (p : PortId) : portAt t p = portAt s p := by
  rw [h]
  cases p <;> rfl

theorem walkFrame_setStage (s : State) (e stage : Nat) : WalkFrame s (setStage s e stage) := by
  unfold setStage
  dsimp only
  split
  · exact (walkFrame_setRun s e _).trans (walkFrame_changeEffective _ _ _)
  · exact walkFrame_setRun s e _

theorem walkFrame_workEntry (s : State) (e raw : Nat) : WalkFrame s (workEntry s e raw) := by
  have raised (u : State) (b : Bool) : WalkFrame u (if b then raise u .expressionFault (.number e) else u) := by
    split
    · exact walkFrame_raise _ _ _
    · exact .refl u
  unfold workEntry
  dsimp only
  split
  · exact (walkFrame_setRun s e _).trans (raised _ _)
  · split
    · exact (walkFrame_setRun s e _).trans (raised _ _)
    · exact ((walkFrame_setRun s e _).trans (raised _ _)).trans (walkFrame_setStage _ e _)

theorem walkFrame_walkFrom (p : PortId) (data : List Word) (left e : Nat) (s : State) :
    WalkFrame s (walkFrom p data left e s) := by
  induction left generalizing e s with
  | zero => exact .refl s
  | succ left ih =>
    rw [walkFrom]
    split
    · exact .refl s
    · refine WalkFrame.trans ?_ (ih _ _)
      split
      · exact walkFrame_workEntry s e _
      · exact .refl s

theorem walkFrame_walk (s : State) (p : PortId) (data : List Word) : WalkFrame s (walk s p data) :=
  walkFrame_walkFrom p data 8 0 s

theorem walkFrame_arrival (s : State) (p : PortId) : WalkFrame s (arrival s p) := by
  refine List.foldlRecOn (motive := WalkFrame s) _ _ ?_ fun v hv d _ => ?_
  · exact (walkFrame_setDrawn s _).trans (walkFrame_changeEffective _ _ _)
  · split
    · exact hv.trans (walkFrame_of_tableFrame (tableFrame_playHeldKeys v p d))
    · exact hv

/-! ### The frame of an event handed on (R142) -/

/-- A port whose level and recall slot alone have moved. -/
def SameLine (c d : ConsolePort) : Prop :=
  d = { c with level := d.level, recallSlot := d.recallSlot }

theorem SameLine.trans {c d e : ConsolePort} (h : SameLine c d) (k : SameLine d e) : SameLine c e := by
  unfold SameLine at *
  rw [h] at k
  exact k

/-- Only what sounds, the registration's sets, the combinations and the ports' levels and recall slots have moved. -/
structure Plays (s t : State) : Prop where
  frame : t = { s with
    drawn := t.drawn, runs := t.runs, tremulants := t.tremulants, table := t.table, rails := t.rails
    counters := t.counters, pendingCauses := t.pendingCauses, details := t.details, firstCause := t.firstCause
    combination := t.combination, dirty := t.dirty, dirtyOverflow := t.dirtyOverflow, portA := t.portA
    portB := t.portB }
  line : ∀ p, SameLine (portAt s p) (portAt t p)

namespace Plays

theorem refl (s : State) : Plays s s := ⟨rfl, fun _ => rfl⟩

theorem trans {s t u : State} (h : Plays s t) (k : Plays t u) : Plays s u := by
  refine ⟨?_, fun p => (h.line p).trans (k.line p)⟩
  have hframe := k.frame
  rw [h.frame] at hframe
  exact hframe

theorem of_walkFrame {s t : State} (h : WalkFrame s t) : Plays s t := by
  refine ⟨?_, fun p => by rw [portAt_of_walkFrame h]; rfl⟩
  rw [h]

theorem of_setPort {s : State} {p : PortId} {c : ConsolePort} (h : SameLine (portAt s p) c) : Plays s (setPort s p c) := by
  refine ⟨by cases p <;> rfl, fun q => ?_⟩
  rw [portAt_setPort]
  split
  · next hq =>
    rw [← hq]
    exact h
  · rfl

end Plays

theorem plays_ungranted (s : State) (p : PortId) : Plays s (ungranted s p) := ⟨rfl, fun q => by cases q <;> rfl⟩

theorem plays_setRecall (s : State) (p : PortId) (r : RecallSlot) : Plays s (setRecall s p r) := .of_setPort rfl

theorem plays_recallPress (s : State) (p : PortId) (code : Nat) : Plays s (recallPress s p code).1 := by
  unfold recallPress
  dsimp only
  split
  · exact plays_ungranted s p
  · split
    · exact plays_setRecall s p _
    · exact (Plays.of_walkFrame ((walkFrame_setDrawn s _).trans (walkFrame_changeEffective _ _ _))).trans
        (plays_setRecall _ p _)

theorem plays_dirtyAppend (s : State) (p : PortId) (name : Nat × Nat) : Plays s (dirtyAppend s p name) := by
  unfold dirtyAppend
  split
  · exact .refl s
  · split
    · dsimp only
      split <;> exact ⟨rfl, fun q => by cases q <;> rfl⟩
    · exact ⟨rfl, fun q => by cases q <;> rfl⟩

theorem plays_capture (s : State) (p : PortId) (code : Nat) : Plays s (capture s p code) := by
  have stored (level : Nat) (x : StopSet) : Plays s (setCombination s level code x) :=
    ⟨rfl, fun q => by cases q <;> rfl⟩
  unfold capture
  dsimp only
  split
  · exact plays_ungranted s p
  · exact (stored _ _).trans (plays_dirtyAppend _ p _)

theorem plays_pistonMake (s : State) (p : PortId) (code : Nat) : Plays s (pistonMake s p code) := by
  unfold pistonMake
  split
  · exact plays_capture s p code
  · unfold pistonAction
    split
    · exact plays_recallPress s p code
    split
    · exact .of_setPort rfl
    split
    · exact .of_setPort rfl
    · exact .refl s

theorem plays_tabEvent (s : State) (p : PortId) (n : Nat) (made : Bool) : Plays s (tabEvent s p n made) := by
  unfold tabEvent
  dsimp only
  split
  · exact .refl s
  split
  · exact plays_ungranted s p
  split
  · exact .refl s
  split
  · exact .refl s
  · exact .of_walkFrame ((walkFrame_setDrawn s _).trans (walkFrame_changeEffective _ _ _))

theorem plays_handOn (s : State) (p : PortId) (i b : Nat) (made : Bool) : Plays s (handOn s p i b made) := by
  unfold handOn
  dsimp only
  split
  · split
    · exact .of_walkFrame (walkFrame_of_tableFrame (tableFrame_keyMake s p _ _ _))
    · exact .of_walkFrame (walkFrame_of_tableFrame (tableFrame_keyBreak s p _ _ _))
  · exact plays_tabEvent s p _ made
  · split
    · exact plays_pistonMake s p _
    · exact .refl s
  · exact .refl s
  · exact .refl s

/-! ### The drive timer's expiry (R107; O35) -/

/-- The tabs of a list counted and reported, each in turn. -/
def tabsReported (s : State) (ns : List Nat) : State :=
  ns.foldl (fun u n => raise (bump u .tabMismatches) .tabMismatch (.number n)) s

theorem tableFrame_tabsReported (s : State) (ns : List Nat) : TableFrame s (tabsReported s ns) :=
  tableFrame_foldl (f := fun u n => raise (bump u .tabMismatches) .tabMismatch (.number n)) (fun _ _ => by rfl) ns s

theorem table_tabsReported (s : State) (ns : List Nat) : (tabsReported s ns).table = s.table :=
  List.foldlRecOn (motive := fun v : State => v.table = s.table) _ _ rfl fun _ hv _ _ => hv

theorem tabMismatch_of_tableFrame {s u : State} (h : TableFrame s u) (p : PortId) (n : Nat) :
    tabMismatch u p n = tabMismatch s p n := by
  rw [tabMismatch, portAt_of_tableFrame h, h]
  rfl

/-- The check of a list of stops reports those of them whose tab reads otherwise than drawn. -/
theorem foldl_checkTab (s : State) (p : PortId) (ns : List Nat) {u : State} (h : TableFrame s u) :
    ns.foldl (checkTab p) u = tabsReported u (ns.filter (tabMismatch s p)) := by
  induction ns generalizing u with
  | nil => rfl
  | cons n ns ih =>
    rw [List.foldl_cons, checkTab, tabMismatch_of_tableFrame h, List.filter_cons]
    split
    · exact ih (h.trans rfl)
    · exact ih h

theorem tabMismatch_iff {s : State} {p : PortId} {n : Nat} (hn : n < 256) : tabMismatch s p n = true ↔
    TabMapped (portAt s p) n ∧ ¬ (TabReadsMade (portAt s p) n ↔ s.drawn.getLsbD n = true) := by
  rw [tabMismatch, Bool.and_eq_true, hasTab_iff hn, bne_iff_ne, ne_eq, Bool.eq_iff_iff, tabMade_iff hn]

theorem mismatchCheck_eq {s : State} {p : PortId} {ns : List Nat} (hasc : ns.Pairwise (· < ·))
    (hmem : ∀ n, n ∈ ns ↔ n < 256 ∧ (portAt s p).state = .online
      ∧ ((portAt s p).recallSlot.driveOn.getLsbD n = true ∨ (portAt s p).recallSlot.driveOff.getLsbD n = true)
      ∧ TabMapped (portAt s p) n ∧ ¬ (TabReadsMade (portAt s p) n ↔ s.drawn.getLsbD n = true)) :
    mismatchCheck s p = tabsReported s ns := by
  unfold mismatchCheck
  split
  · next honline =>
    rw [foldl_checkTab s p _ (TableFrame.refl s), members, List.filter_filter]
    refine congrArg (tabsReported s) (eq_filter_range_of_pairwise hasc fun n => (hmem n).trans ?_).symm
    refine and_congr_right fun hn => ?_
    rw [Bool.and_eq_true, tabMismatch_iff hn, driveSet, BitVec.getLsbD_or, Bool.or_eq_true]
    constructor
    · rintro ⟨-, hdriven, hmismatch⟩
      exact ⟨hmismatch, hdriven⟩
    · rintro ⟨hmismatch, hdriven⟩
      exact ⟨honline, hdriven, hmismatch⟩
  · next hoff =>
    have hnone : ns = [] := List.eq_nil_iff_forall_not_mem.2 fun n hn => hoff ((hmem n).1 hn).2.1
    rw [hnone]
    rfl

theorem counterAt_tabsReported (s : State) (ns : List Nat) :
    counterAt (tabsReported s ns) .tabMismatches = ns.foldl (fun w _ => countUp w) (counterAt s .tabMismatches) := by
  induction ns generalizing s with
  | nil => rfl
  | cons n ns ih =>
    refine (ih _).trans (congrArg (fun w => ns.foldl (fun w _ => countUp w) w) ?_)
    exact counterAt_bump_same (by decide) s

theorem tabsReported_last {s : State} {ns : List Nat} {n : Nat} (h : ns.getLast? = some n) :
    (tabsReported s ns).pendingCauses.getLsbD 8 = true ∧ look (tabsReported s ns).details 8 .none = .number n := by
  obtain ⟨before, rfl⟩ := List.getLast?_eq_some_iff.1 h
  rw [tabsReported, List.foldl_append]
  exact ⟨pending_raise_same _ .tabMismatch _, details_raise_same _ .tabMismatch _⟩

theorem driveExpiry_eq {s : State} {p : PortId} {ms : Nat} (h : (portAt s p).recallSlot.timer = some ms) :
    driveExpiry s p = match (portAt s p).recallSlot.pendingPiston with
      | none => idleRecall (mismatchCheck s p) p
      | some code => (recallPress (idleRecall (mismatchCheck s p) p) p code).1 := by
  rw [driveExpiry, h]
  rfl

/-- Settles O35. -/
theorem driveTimerExpiryChecksTabs : Obligations.DriveTimerExpiryChecksTabs := by
  unfold Obligations.DriveTimerExpiryChecksTabs
  intro s p ms ns htimer hasc hmem checked cleared
  have hchecked : checked = tabsReported s ns := rfl
  have hframe := tableFrame_tabsReported s ns
  have hcleared : idleRecall (mismatchCheck s p) p = cleared := by
    rw [mismatchCheck_eq hasc hmem, idleRecall, setRecall, portAt_of_tableFrame hframe]
    rfl
  have hexec : exec (.driveTimerExpiry p) s = .next (driveExpiry s p) := rfl
  rw [hexec, driveExpiry_eq htimer, hcleared]
  refine ⟨fun h => by rw [h], fun code h => by rw [h], ?_, fun n hn => ?_, ?_, ?_⟩
  · refine Eq.trans ?_ (counterAt_tabsReported s ns)
    cases p <;> rfl
  · have hlast := tabsReported_last (s := s) hn
    cases p <;> exact hlast
  · change (setPort (tabsReported s ns) p _).drawn = _
    rw [setPort_drawn, hframe]
  · change (setPort (tabsReported s ns) p _).table = _
    rw [setPort_table, table_tabsReported]

end Sys2Proof.Proofs.Console
end

section
/-! PROOFS. What sounds moves no counter of a port and does not raise PORT_ONLINE (R83, R134, R137): claims, releases, a
change of the effective set, held keys, the arrival and the walk; and what a valid frame leaves of its port (R134 to
R138, R141). -/

namespace Sys2Proof.Proofs.Console

open Sys2Proof.Machine Sys2Proof.Proofs.Claims Sys2Proof.Proofs.PortLoss Sys2Proof.Proofs.Registration
open Sys2Proof.Proofs.Pistons Sys2Proof.Proofs.Releases Sys2Proof.Proofs.Changes Sys2Proof.Proofs.KeysAndTabs
open Sys2Proof.Proofs.Reads Sys2Proof.Proofs.RecordTimers

/-! ### The ports' counters and PORT_ONLINE -/

/-- The counters of the ports stand, which have the first eight places, and so does PORT_ONLINE. -/
structure SparesPorts (s t : State) : Prop where
  counters : ∀ c, Counter.place c < 8 → counterAt t c = counterAt s c
  pending : t.pendingCauses.getLsbD (Cause.bit .portOnline) = s.pendingCauses.getLsbD (Cause.bit .portOnline)
  details : look t.details (Cause.bit .portOnline) .none = look s.details (Cause.bit .portOnline) .none

namespace SparesPorts

theorem refl (s : State) : SparesPorts s s := ⟨fun _ _ => rfl, rfl, rfl⟩

theorem trans {s t u : State} (h : SparesPorts s t) (k : SparesPorts t u) : SparesPorts s u :=
  ⟨fun c hc => (k.counters c hc).trans (h.counters c hc), k.pending.trans h.pending, k.details.trans h.details⟩

theorem of_eq {s t : State} (hcounters : t.counters = s.counters) (hflags : SameFlags s t) : SparesPorts s t :=
  ⟨fun c _ => by rw [counterAt, hcounters, ← counterAt], by rw [hflags.pending], by rw [hflags.details]⟩

theorem foldl {α : Type} {f : State → α → State} (h : ∀ s a, SparesPorts s (f s a)) (xs : List α) (s : State) :
    SparesPorts s (xs.foldl f s) :=
  List.foldlRecOn (motive := SparesPorts s) _ _ (.refl s) fun _ hv a _ => hv.trans (h _ a)

end SparesPorts

theorem sparesPorts_bump {s : State} {d : Counter} (hd : 8 ≤ Counter.place d) : SparesPorts s (bump s d) :=
  ⟨fun c hc => counterAt_bump_ne (by omega) s, rfl, rfl⟩

theorem sparesPorts_raise {s : State} {c : Cause} (hc : c ≠ .portOnline) (d : Detail) : SparesPorts s (raise s c d) :=
  ⟨fun _ _ => rfl, pending_raise_ne hc.symm s d, details_raise_ne hc.symm s d⟩

theorem sparesPorts_admissionRequest (s : State) (i : Nat) : SparesPorts s (admissionRequest s i) := by
  obtain ⟨hpending, hdetails, -⟩ := sameFlags_admissionRequest s i
  refine ⟨fun c hc => counterAt_admissionRequest (fun h => ?_) s i, by rw [hpending], by rw [hdetails]⟩
  rw [h] at hc
  revert hc
  decide

theorem sparesPorts_releaseRequest (s : State) (pat : Pattern) : SparesPorts s (releaseRequest s pat) := by
  obtain ⟨hpending, hdetails, -⟩ := sameFlags_releaseRequest s pat
  refine ⟨fun c hc => counterAt_of_releasedBy (fun h => ?_) (releasedBy_releaseRequest s pat), by rw [hpending],
    by rw [hdetails]⟩
  rw [h] at hc
  revert hc
  decide

theorem sparesPorts_setRecord (s : State) (i : Nat) (r : Option Record) : SparesPorts s (setRecord s i r) :=
  .of_eq rfl ⟨rfl, rfl, rfl⟩

theorem sparesPorts_joinClaim (s : State) (i : Nat) (r : Record) (c : Claim) : SparesPorts s (joinClaim s i r c) := by
  unfold joinClaim
  dsimp only
  split
  · exact (sparesPorts_setRecord s i _).trans (sparesPorts_admissionRequest _ i)
  · exact sparesPorts_setRecord s i _

theorem sparesPorts_claimRequest (s : State) (c : Claim) (rank pipe : Nat) :
    SparesPorts s (claimRequest s c rank pipe) := by
  unfold claimRequest
  split
  · split
    · exact .refl s
    split
    · exact sparesPorts_bump (by decide)
    split
    · exact (sparesPorts_bump (by decide)).trans (sparesPorts_raise (by decide) _)
    · exact sparesPorts_joinClaim s _ _ c
  · split
    · exact .refl s
    split
    · exact (sparesPorts_bump (by decide)).trans (sparesPorts_raise (by decide) _)
    · exact (sparesPorts_setRecord s _ _).trans (sparesPorts_admissionRequest _ _)

theorem sparesPorts_claimFor (s : State) (p : PortId) (d : Nat) (t : Touch) (k n : Nat) :
    SparesPorts s (claimFor s p d t k n) := by
  unfold claimFor
  split
  · exact .refl s
  · exact sparesPorts_claimRequest s _ _ _

theorem sparesPorts_claimHeldKeys (s : State) (n : Nat) : SparesPorts s (claimHeldKeys s n) := by
  unfold claimHeldKeys
  dsimp only
  split
  · exact .refl s
  · exact .foldl (fun v k => sparesPorts_claimFor v _ _ _ k n) _ s

theorem sparesPorts_retakeTremulant (s : State) (rank : Nat) : SparesPorts s (retakeTremulant s rank) :=
  .of_eq rfl ⟨rfl, rfl, rfl⟩

theorem sparesPorts_goOff (s : State) (n : Nat) : SparesPorts s (goOff s n) := by
  unfold goOff
  split
  · exact .refl s
  · exact sparesPorts_retakeTremulant s _
  · exact sparesPorts_releaseRequest s _
  · exact sparesPorts_releaseRequest s _

theorem sparesPorts_comeOn (claims : Bool) (s : State) (n : Nat) : SparesPorts s (comeOn claims s n) := by
  have held : SparesPorts s (if claims then claimHeldKeys s n else s) := by
    split
    · exact sparesPorts_claimHeldKeys s n
    · exact .refl s
  unfold comeOn
  split
  · exact .refl s
  · exact sparesPorts_retakeTremulant s _
  · exact held
  · exact held

theorem sparesPorts_changeEffective (claims : Bool) (before : StopSet) (s : State) :
    SparesPorts s (changeEffective claims before s) :=
  (SparesPorts.foldl sparesPorts_goOff _ s).trans (.foldl (sparesPorts_comeOn claims) _ _)

theorem sparesPorts_playKey (s : State) (p : PortId) (d : Nat) (t : Touch) (k : Nat) :
    SparesPorts s (playKey s p d t k) :=
  .foldl (fun v n => sparesPorts_claimFor v p d t k n) _ s

/-- A key make of the port that holds the division. -/
theorem sparesPorts_keyMake {s : State} {p : PortId} {d : Nat} (h : holds s p d = true) (t : Touch) (k : Nat) :
    SparesPorts s (keyMake s p d t k) := by
  rw [keyMake, if_pos h]
  exact sparesPorts_playKey s p d t k

theorem holds_of_tableFrame {s t : State} (h : TableFrame s t) (p : PortId) (d : Nat) : holds t p d = holds s p d := by
  rw [h]
  rfl

theorem sparesPorts_playHeldKey {s : State} {p : PortId} {d : Nat} (h : holds s p d = true) (k : Nat) :
    SparesPorts s (playHeldKey p d s k) ∧ holds (playHeldKey p d s k) p d = true := by
  have made {u : State} (hu : holds u p d = true) (t : Touch) :
      SparesPorts u (if keyMade (portAt u p) d t k then keyMake u p d t k else u)
        ∧ holds (if keyMade (portAt u p) d t k then keyMake u p d t k else u) p d = true := by
    split
    · exact ⟨sparesPorts_keyMake hu t k, (holds_of_tableFrame (tableFrame_keyMake u p d t k) p d).trans hu⟩
    · exact ⟨.refl u, hu⟩
  obtain ⟨hfirst, hheld⟩ := made h .first
  obtain ⟨hsecond, hheld'⟩ := made hheld .second
  exact ⟨hfirst.trans hsecond, hheld'⟩

theorem sparesPorts_playHeldKeys {s : State} {p : PortId} {d : Nat} (h : holds s p d = true) :
    SparesPorts s (playHeldKeys s p d) :=
  (List.foldlRecOn (motive := fun v => SparesPorts s v ∧ holds v p d = true) _ _ ⟨.refl s, h⟩ fun _ hv k _ =>
    ⟨hv.1.trans (sparesPorts_playHeldKey hv.2 k).1, (sparesPorts_playHeldKey hv.2 k).2⟩).1

theorem sparesPorts_setDrawn (s : State) (x : StopSet) : SparesPorts s (setDrawn s x) := .of_eq rfl ⟨rfl, rfl, rfl⟩

theorem sparesPorts_setRun (s : State) (e : Nat) (r : ExprRun) : SparesPorts s (setRun s e r) :=
  .of_eq rfl ⟨rfl, rfl, rfl⟩

theorem sparesPorts_arrival (s : State) (p : PortId) : SparesPorts s (arrival s p) := by
  refine List.foldlRecOn (motive := SparesPorts s) _ _ ?_ fun v hv d _ => ?_
  · exact (sparesPorts_setDrawn s _).trans (sparesPorts_changeEffective _ _ _)
  · split
    · next h => exact hv.trans (sparesPorts_playHeldKeys h)
    · exact hv

theorem sparesPorts_setStage (s : State) (e stage : Nat) : SparesPorts s (setStage s e stage) := by
  unfold setStage
  dsimp only
  split
  · exact (sparesPorts_setRun s e _).trans (sparesPorts_changeEffective _ _ _)
  · exact sparesPorts_setRun s e _

theorem sparesPorts_workEntry (s : State) (e raw : Nat) : SparesPorts s (workEntry s e raw) := by
  have raised (u : State) (b : Bool) : SparesPorts u (if b then raise u .expressionFault (.number e) else u) := by
    split
    · exact sparesPorts_raise (by decide) _
    · exact .refl u
  unfold workEntry
  dsimp only
  split
  · exact (sparesPorts_setRun s e _).trans (raised _ _)
  · split
    · exact (sparesPorts_setRun s e _).trans (raised _ _)
    · exact ((sparesPorts_setRun s e _).trans (raised _ _)).trans (sparesPorts_setStage _ e _)

theorem sparesPorts_walkFrom (p : PortId) (data : List Word) (left e : Nat) (s : State) :
    SparesPorts s (walkFrom p data left e s) := by
  induction left generalizing e s with
  | zero => exact .refl s
  | succ left ih =>
    rw [walkFrom]
    split
    · exact .refl s
    · refine SparesPorts.trans ?_ (ih _ _)
      split
      · exact sparesPorts_workEntry s e _
      · exact .refl s

theorem sparesPorts_walk (s : State) (p : PortId) (data : List Word) : SparesPorts s (walk s p data) :=
  sparesPorts_walkFrom p data 8 0 s

/-! ### An event handed on counts no frame (R142) -/

/-- The counter of a port's valid frames stands. -/
def KeepsFrames (p : PortId) (s t : State) : Prop :=
  counterAt t (.validFrames p) = counterAt s (.validFrames p)

theorem KeepsFrames.trans {p : PortId} {s t u : State} (h : KeepsFrames p s t) (k : KeepsFrames p t u) :
    KeepsFrames p s u := Eq.trans k h

theorem SparesPorts.keepsFrames {s t : State} (h : SparesPorts s t) (p : PortId) : KeepsFrames p s t :=
  h.counters _ (by cases p <;> decide)

theorem keepsFrames_ungranted (p : PortId) (s : State) (q : PortId) : KeepsFrames p s (ungranted s q) :=
  counterAt_bump_ne (by cases p <;> cases q <;> decide) s

theorem keepsFrames_setPort (p : PortId) (s : State) (q : PortId) (c : ConsolePort) :
    KeepsFrames p s (setPort s q c) := by
  cases q <;> exact rfl

theorem keepsFrames_change (p : PortId) (s : State) (x : StopSet) (before : StopSet) :
    KeepsFrames p s (changeEffective true before (setDrawn s x)) :=
  ((sparesPorts_setDrawn s x).trans (sparesPorts_changeEffective _ _ _)).keepsFrames p

theorem keepsFrames_recallPress (p : PortId) (s : State) (q : PortId) (code : Nat) :
    KeepsFrames p s (recallPress s q code).1 := by
  unfold recallPress
  dsimp only
  split
  · exact keepsFrames_ungranted p s q
  · split
    · exact keepsFrames_setPort p s q _
    · exact (keepsFrames_change p s _ _).trans (keepsFrames_setPort p _ q _)

theorem keepsFrames_capture (p : PortId) (s : State) (q : PortId) (code : Nat) : KeepsFrames p s (capture s q code) := by
  unfold capture
  dsimp only
  split
  · exact keepsFrames_ungranted p s q
  · unfold dirtyAppend
    split
    · exact rfl
    · split
      · dsimp only
        split <;> exact rfl
      · exact rfl

theorem keepsFrames_pistonMake (p : PortId) (s : State) (q : PortId) (code : Nat) :
    KeepsFrames p s (pistonMake s q code) := by
  unfold pistonMake
  split
  · exact keepsFrames_capture p s q code
  · unfold pistonAction
    split
    · exact keepsFrames_recallPress p s q code
    split
    · exact keepsFrames_setPort p s q _
    split
    · exact keepsFrames_setPort p s q _
    · exact rfl

theorem keepsFrames_tabEvent (p : PortId) (s : State) (q : PortId) (n : Nat) (made : Bool) :
    KeepsFrames p s (tabEvent s q n made) := by
  unfold tabEvent
  dsimp only
  split
  · exact rfl
  split
  · exact keepsFrames_ungranted p s q
  split
  · exact rfl
  split
  · exact rfl
  · exact keepsFrames_change p s _ _

theorem keepsFrames_handOn (p : PortId) (s : State) (q : PortId) (i b : Nat) (made : Bool) :
    KeepsFrames p s (handOn s q i b made) := by
  unfold handOn
  dsimp only
  split
  · split
    · unfold keyMake
      split
      · exact (sparesPorts_playKey s q _ _ _).keepsFrames p
      · exact keepsFrames_ungranted p s q
    · unfold keyBreak
      split
      · exact (sparesPorts_releaseRequest s _).keepsFrames p
      · exact keepsFrames_ungranted p s q
  · exact keepsFrames_tabEvent p s q _ made
  · split
    · exact keepsFrames_pistonMake p s q _
    · exact rfl
  · exact rfl
  · exact rfl

end Sys2Proof.Proofs.Console
end

section
/-! PROOFS. The scan frames (R132 to R134, R143, R144, R176): the return frame, frames that fall short or fail their
check (O30), and start marks (O29). -/

namespace Sys2Proof.Proofs.Console

open Sys2Proof.Machine Sys2Proof.Proofs.Claims Sys2Proof.Proofs.PortLoss Sys2Proof.Proofs.Registration
open Sys2Proof.Proofs.Pistons Sys2Proof.Proofs.Releases Sys2Proof.Proofs.Changes Sys2Proof.Proofs.KeysAndTabs
open Sys2Proof.Proofs.Reads Sys2Proof.Proofs.RecordTimers

/-! ### The return frame (R143, R144) -/

theorem getLsbD_coilWord (x : StopSet) (first : Nat) {b : Nat} (hb : b < 16) :
    (coilWord x first).getLsbD b = x.getLsbD (first + b) := by
  rw [coilWord, getLsbD_bitsOf]
  simp [hb]

theorem getLsbD_indicatorWord (s : State) (p : PortId) {b : Nat} (hb : b < 16) :
    (indicatorWord s p).getLsbD b = true ↔ (b < 4 ∧ (portAt s p).level.testBit b = true)
      ∨ (b = 4 ∧ SetReadsMade (portAt s p)) ∨ (5 ≤ b ∧ b ≤ 10 ∧ granting s (b - 5) = some p) := by
  have hlevel : (BitVec.ofNat 16 ((portAt s p).level % 16)).getLsbD b = true ↔
      b < 4 ∧ (portAt s p).level.testBit b = true := by
    rw [BitVec.getLsbD_ofNat, show 16 = 2 ^ 4 from rfl, Nat.testBit_mod_two_pow]
    simp [hb]
  have hset : (if setMade (portAt s p) then BitVec.twoPow 16 4 else 0).getLsbD b = true ↔
      b = 4 ∧ SetReadsMade (portAt s p) := by
    rw [← setMade_iff]
    cases setMade (portAt s p)
    · simp
    · simp only [if_true, BitVec.getLsbD_twoPow, Bool.and_eq_true, decide_eq_true_eq, and_true]
      omega
  have hheld : (bitsOf 16 (fun b => decide (5 ≤ b) && decide (b ≤ 10) && holds s p (b - 5)) 16).getLsbD b = true ↔
      5 ≤ b ∧ b ≤ 10 ∧ granting s (b - 5) = some p := by
    rw [getLsbD_bitsOf]
    simp [hb, holds, and_assoc]
  rw [indicatorWord, BitVec.getLsbD_or, BitVec.getLsbD_or, Bool.or_eq_true, Bool.or_eq_true, hlevel, hset, hheld, or_assoc]

theorem getLsbD_returnWord (s : State) (p : PortId) (i : Nat) {b : Nat} (hb : b < 16) :
    (returnWord s p i).getLsbD b = true ↔
      ((returnAt (portAt s p) i).kind = .tabDriveOn
        ∧ (portAt s p).recallSlot.driveOn.getLsbD ((returnAt (portAt s p) i).firstStop + b) = true)
      ∨ ((returnAt (portAt s p) i).kind = .tabDriveOff
        ∧ (portAt s p).recallSlot.driveOff.getLsbD ((returnAt (portAt s p) i).firstStop + b) = true)
      ∨ ((returnAt (portAt s p) i).kind = .indicator
        ∧ ((b < 4 ∧ (portAt s p).level.testBit b = true) ∨ (b = 4 ∧ SetReadsMade (portAt s p))
          ∨ (5 ≤ b ∧ b ≤ 10 ∧ granting s (b - 5) = some p))) := by
  unfold returnWord
  cases hkind : (returnAt (portAt s p) i).kind
  · simp [hkind]
  · simp [hkind, getLsbD_coilWord _ _ hb]
  · simp [hkind, getLsbD_coilWord _ _ hb]
  · simp [hkind, getLsbD_indicatorWord s p hb]

/-- The return slots are the words that say bit by bit what they say. -/
theorem returnSlots_eq {s : State} {p : PortId} {ws : List Word} (hlength : ws.length = (portAt s p).entry.returnSlots)
    (hbits : ∀ i b, i < (portAt s p).entry.returnSlots → b < 16 →
      ((ws.getD i 0).getLsbD b = true ↔ (returnWord s p i).getLsbD b = true)) : returnSlots s p = ws := by
  refine List.ext_getElem (by simp [returnSlots, hlength]) fun i hi hi' => ?_
  have hword : ws.getD i 0 = ws[i] := by simp [hi']
  refine BitVec.eq_of_getLsbD_eq fun b hb => ?_
  rw [Bool.eq_iff_iff, ← hword, hbits i b (hlength ▸ hi') hb]
  simp [returnSlots]

/-! ### Frames that fall short or fail their check (O30) -/

section Receiving

variable {s : State} {p : PortId} {taken : List Word} (hreceiver : (portAt s p).receiver = .receiving taken)
  (hframing : (portAt s p).framing ≠ .held)
include hreceiver hframing

theorem exec_scanFrame (slots : List Word) :
    exec (.scanFrame p slots) s = .next (receiveSlots s p taken slots) := by
  change Host.Outcome.next (slotsArrive s p slots) = _
  rw [slotsArrive_unheld slots hframing, takeSlots, hreceiver]

theorem exec_scanFrame_short {slots : List Word} (h : (taken ++ slots).length ≤ (portAt s p).entry.dataSlots) :
    exec (.scanFrame p slots) s = .next (setPort s p { portAt s p with
      receiver := .receiving (taken ++ slots), returnFrame := returnAfter (portAt s p) (taken ++ slots).length }) := by
  rw [exec_scanFrame hreceiver hframing, receiveSlots]
  exact congrArg Host.Outcome.next (if_pos (Nat.lt_succ_of_le h))

theorem exec_scanFrame_complete {slots : List Word} (h : (portAt s p).entry.dataSlots < (taken ++ slots).length) :
    exec (.scanFrame p slots) s = .next (judgeFrame
      (setPort s p { portAt s p with receiver := .waiting, returnFrame := none }) p
      ((taken ++ slots).take (portAt s p).entry.dataSlots)
      ((taken ++ slots).getD (portAt s p).entry.dataSlots 0)) := by
  rw [exec_scanFrame hreceiver hframing, receiveSlots]
  exact congrArg Host.Outcome.next (if_neg (by omega))

end Receiving

/-- Settles O30. -/
theorem incompleteAndInvalidFramesAreNotUsed : Obligations.IncompleteAndInvalidFramesAreNotUsed := by
  unfold Obligations.IncompleteAndInvalidFramesAreNotUsed
  intro s p taken slots hreceiver hframing
  refine ⟨exec_scanFrame_short hreceiver hframing, fun hlength hcheck => ?_⟩
  rw [exec_scanFrame_complete hreceiver hframing hlength, judgeFrame, if_neg hcheck]
  cases p <;> rfl

/-! ### What a frame leaves of its port's receiver (R132, R176) -/

/-- A port that has moved in its contacts, its level and its recall slot alone. -/
def SameContactsLine (c d : ConsolePort) : Prop :=
  d = { c with level := d.level, recallSlot := d.recallSlot, image := d.image, debounce := d.debounce }

theorem SameContactsLine.trans {c d e : ConsolePort} (h : SameContactsLine c d) (k : SameContactsLine d e) :
    SameContactsLine c e := by
  unfold SameContactsLine at *
  rw [h] at k
  exact k

theorem SameLine.contacts {c d : ConsolePort} (h : SameLine c d) : SameContactsLine c d := by
  unfold SameContactsLine
  rw [h]

theorem sameContactsLine_takeContact (p : PortId) (data : List Word) (s : State) (x : Nat × Nat) :
    SameContactsLine (portAt s p) (portAt (takeContact p data s x) p) := by
  unfold takeContact
  dsimp only
  split
  · rfl
  split
  · rw [portAt_setPort_same]
    rfl
  split
  · refine SameContactsLine.trans ?_ ((plays_handOn _ p _ _ _).line p).contacts
    rw [portAt_setPort_same]
    rfl
  · rw [portAt_setPort_same]
    rfl

theorem sameContactsLine_takeContacts (p : PortId) (data : List Word) (xs : List (Nat × Nat)) (s : State) :
    SameContactsLine (portAt s p) (portAt (xs.foldl (takeContact p data) s) p) :=
  List.foldlRecOn (motive := fun v => SameContactsLine (portAt s p) (portAt v p)) _ _ rfl fun v hv x _ =>
    hv.trans (sameContactsLine_takeContact p data v x)

/-- A judged frame leaves the receiver and the reckoning of its port. -/
theorem receiver_judgeFrame (s : State) (p : PortId) (data : List Word) (check : Word) :
    (portAt (judgeFrame s p data check) p).receiver = (portAt s p).receiver
      ∧ (portAt (judgeFrame s p data check) p).framing = (portAt s p).framing := by
  have counted (c : Counter) : portAt (bump s c) p = portAt s p := portAt_bump s c p
  have good (u : State) : (portAt (goodFrame u p data) p).receiver = (portAt u p).receiver
      ∧ (portAt (goodFrame u p data) p).framing = (portAt u p).framing := by
    unfold goodFrame
    dsimp only
    split
    · rw [enterOnline, portAt_of_walkFrame (walkFrame_walk _ p data), portAt_of_walkFrame (walkFrame_arrival _ p),
        portAt_raise, portAt_setPort_same]
      exact ⟨rfl, rfl⟩
    · rw [portAt_setPort_same]
      exact ⟨rfl, rfl⟩
  unfold judgeFrame
  split
  · unfold validFrame
    split
    · rw [counted]
      exact ⟨rfl, rfl⟩
    · have h := good (bump s (.validFrames p))
      rw [counted] at h
      exact h
    · have h := good (bump s (.validFrames p))
      rw [counted] at h
      exact h
    · have hline := sameContactsLine_takeContacts p data (frameContacts (portAt (bump s (.validFrames p)) p))
        (setPort (bump s (.validFrames p)) p (reloaded (portAt (bump s (.validFrames p)) p)
          ((bump s (.validFrames p)).pending.contains (.watchdogExpiry p))))
      rw [onlineFrame, portAt_of_walkFrame (walkFrame_walk _ p data), hline, portAt_setPort_same, counted]
      exact ⟨rfl, rfl⟩
  · rw [invalidFrame, portAt_setPort_same, counted]
    exact ⟨rfl, rfl⟩

/-- Slots taken leave the reckoning of the port. -/
theorem framing_takeSlots (s : State) (p : PortId) (slots : List Word) :
    (portAt (takeSlots s p slots) p).framing = (portAt s p).framing := by
  unfold takeSlots
  split
  · rfl
  · rfl
  · unfold receiveSlots
    dsimp only
    split
    · rw [portAt_setPort_same]
    · rw [(receiver_judgeFrame _ p _ _).2, portAt_setPort_same]

theorem framing_markAtBoundary (s : State) (p : PortId) (h : (portAt s p).framing ≠ .held) :
    (portAt (markAtBoundary s p) p).framing ≠ .held := by
  cases hr : (portAt s p).receiver with
  | idle =>
    rw [markAtBoundary_idle hr]
    exact h
  | waiting =>
    rw [markAtBoundary_waiting hr, portAt_setPort_same]
    exact Framing.noConfusion
  | receiving taken =>
    rw [markAtBoundary_receiving hr, portAt_setPort_same]
    exact Framing.noConfusion

/-! ### Start marks (O29) -/

theorem startMarkArrives_boundary {s : State} {p : PortId} {bit : Fin 16}
    (h : bit = 0 ∨ (portAt s p).framing = .unset ∨ (portAt s p).receiver = .idle) :
    startMarkArrives s p bit = markAtBoundary s p := if_pos h

theorem startMarkArrives_inside {s : State} {p : PortId} {bit : Fin 16} (hbit : bit ≠ 0)
    (hframing : (portAt s p).framing = .reckoned) (hreceiver : (portAt s p).receiver ≠ .idle) :
    startMarkArrives s p bit = setPort s p { portAt s p with framing := .held } := by
  refine if_neg ?_
  rw [hframing]
  rintro (h | h | h)
  · exact hbit h
  · cases h
  · exact hreceiver h

/-- Slots behind a held mark: the first ends at the boundary where the mark is taken, and the rest follow it. -/
theorem slotsArrive_held {s : State} {p : PortId} {w : Word} {rest : List Word} (h : (portAt s p).framing = .held) :
    slotsArrive s p (w :: rest) =
      slotsArrive (markAtBoundary (slotsArrive (setPort s p { portAt s p with framing := .reckoned }) p [w]) p) p rest := by
  have hreckoned : (portAt (setPort s p { portAt s p with framing := .reckoned }) p).framing ≠ .held := by
    rw [portAt_setPort_same]
    exact Framing.noConfusion
  have hlater : (portAt (markAtBoundary
      (takeSlots (setPort s p { portAt s p with framing := .reckoned }) p [w]) p) p).framing ≠ .held :=
    framing_markAtBoundary _ p (by rw [framing_takeSlots]; exact hreckoned)
  rw [slotsArrive_unheld [w] hreckoned, slotsArrive_unheld rest hlater]
  exact if_pos h

/-- Settles O29. -/
theorem startMarksBeginAndAbandonFrames : Obligations.StartMarksBeginAndAbandonFrames := by
  unfold Obligations.StartMarksBeginAndAbandonFrames
  have hmark (p : PortId) (bit : Fin 16) (s : State) :
      exec (.startMark { port := p, bit := bit }) s = .next (startMarkArrives s p bit) := rfl
  have hearly (p : PortId) (bit : Fin 16) (s : State) :
      exec (.earlyStartMark { port := p, bit := bit }) s = .next (startMarkArrives s p bit) := rfl
  have hscan (p : PortId) (slots : List Word) (s : State) :
      exec (.scanFrame p slots) s = .next (slotsArrive s p slots) := rfl
  refine ⟨fun s p bit ws hlength hbits hreceiver hwhere => ?_, fun s p bit => ⟨fun hidle => ?_, ?_⟩, ?_, ?_⟩
  · have hslots : returnSlots s p = ws :=
      returnSlots_eq hlength fun i b hi hb => (hbits i b hi hb).trans (getLsbD_returnWord s p i hb).symm
    rw [hmark, startMarkArrives_boundary (hwhere.imp And.left Or.inl), markAtBoundary_waiting hreceiver, returnFrameOf,
      hslots]
  · rw [hmark, startMarkArrives_boundary (.inr (.inr hidle)), markAtBoundary_idle hidle]
  · intro hreceiver hframing hbit
    rw [hmark, hearly, startMarkArrives_inside hbit hframing hreceiver]
    exact ⟨rfl, rfl⟩
  · intro s u v p w rest hheld hu hv
    rw [hscan] at hu
    rw [hmark, startMarkArrives_boundary (.inl rfl)] at hv
    rw [hscan, hscan, slotsArrive_held hheld, Host.Outcome.next.inj hu, Host.Outcome.next.inj hv]
  · intro s p taken hreceiver hframing
    rw [hearly, startMarkArrives_boundary (.inl rfl), markAtBoundary_receiving hreceiver, ← hframing]
    rfl

end Sys2Proof.Proofs.Console
end

section
/-! PROOFS. The expression walk (R119 to R124; O52). -/

namespace Sys2Proof.Proofs.Walks

open Sys2Proof.Machine Sys2Proof.Proofs.Claims Sys2Proof.Proofs.PortLoss Sys2Proof.Proofs.Registration
open Sys2Proof.Proofs.Console

/-! ### Entries worked in order -/

/-- One entry's turn in the walk of a frame that came in state `s`. -/
def entryTurn (s : State) (p : PortId) (data : List Word) (u : State) (e : Nat) : State :=
  if feeds (portAt s p) p (exprAt s e) then workEntry u e (rawValue data (exprAt s e).slot) else u

theorem walkFrame_entryTurn (s : State) (p : PortId) (data : List Word) (u : State) (e : Nat) :
    WalkFrame u (entryTurn s p data u e) := by
  unfold entryTurn
  split
  · exact walkFrame_workEntry u e _
  · exact .refl u

theorem exprAt_of_walkFrame {s u : State} (h : WalkFrame s u) (e : Nat) : exprAt u e = exprAt s e := by
  rw [WalkFrame] at h
  rw [h]
  rfl

/-- The walk works the entries it comes to until the first disabled one. -/
theorem walkFrom_eq (s : State) (p : PortId) (data : List Word) (left e : Nat) {u : State} (h : WalkFrame s u) :
    walkFrom p data left e u =
      ((List.range' e left).takeWhile fun e => (exprAt s e).enabled).foldl (entryTurn s p data) u := by
  induction left generalizing e u with
  | zero => rfl
  | succ left ih =>
    rw [List.range'_succ, List.takeWhile_cons, walkFrom, exprAt_of_walkFrame h]
    by_cases henabled : (exprAt s e).enabled = true
    · rw [if_neg (by rw [henabled]; exact Bool.noConfusion), if_pos henabled, List.foldl_cons,
        ← ih (e + 1) (h.trans (walkFrame_entryTurn s p data u e)), portAt_of_walkFrame h, entryTurn]
    · rw [if_pos (Bool.of_not_eq_true henabled), if_neg henabled]
      rfl

theorem feeds_iff {c : ConsolePort} {p : PortId} {e : ExprEntry} : feeds c p e = true ↔
    e.port = some p ∧ e.slot < c.entry.dataSlots ∧ (slotAt c e.slot).kind = .expression := by
  simp [feeds, and_assoc]

theorem entryTurn_eq (s : State) (p : PortId) (data : List Word) (u : State) (e : Nat) : entryTurn s p data u e =
    if (exprAt s e).port = some p ∧ (exprAt s e).slot < (portAt s p).entry.dataSlots
        ∧ (slotAt (portAt s p) (exprAt s e).slot).kind = .expression then
      workEntry u e ((data.getD (exprAt s e).slot 0).toNat % 4096)
    else u := if_congr feeds_iff rfl rfl

/-! ### An entry worked -/

/-- A fault is raised only where the stage is held. -/
theorem faultCheck_held_of_raised {e : ExprEntry} {r : ExprRun} {raw : Nat} (h : (faultCheck e r raw).2.2 = true) :
    (faultCheck e r raw).2.1 = true := by
  unfold faultCheck at h ⊢
  split at h
  · exact absurd h (by simp)
  next hd =>
  rw [if_neg hd]
  split at h
  next hf =>
    rw [if_pos hf]
    split at h
    next hx =>
      rw [if_pos hx]
      split at h
      next hc => rw [if_pos hc]
      · exact absurd h (by simp)
    · exact absurd h (by simp)
  · split at h
    · exact absurd h (by simp)
    · split at h
      · exact absurd h (by simp)
      · exact absurd h (by simp)

section OneEntry

variable {s : State} {e raw : Nat}

theorem workEntry_raised (h : (faultCheck (exprAt s e) { runAt s e with lastValue := raw } raw).2.2 = true) :
    workEntry s e raw = raise (setRun s e (faultCheck (exprAt s e) { runAt s e with lastValue := raw } raw).1)
      .expressionFault (.number e) := by
  unfold workEntry
  dsimp only
  rw [if_pos (faultCheck_held_of_raised h), if_pos h]

theorem workEntry_held (hraised : (faultCheck (exprAt s e) { runAt s e with lastValue := raw } raw).2.2 = false)
    (h : (faultCheck (exprAt s e) { runAt s e with lastValue := raw } raw).2.1 = true
      ∨ newStage (exprAt s e) (runAt s e).stage (corrected (exprAt s e) raw) = (runAt s e).stage) :
    workEntry s e raw = setRun s e (faultCheck (exprAt s e) { runAt s e with lastValue := raw } raw).1 := by
  unfold workEntry
  dsimp only
  simp only [hraised, Bool.false_eq_true, if_false]
  split
  · rfl
  next hheld => exact if_pos (h.resolve_left hheld)

theorem workEntry_moved (hheld : (faultCheck (exprAt s e) { runAt s e with lastValue := raw } raw).2.1 = false)
    (h : newStage (exprAt s e) (runAt s e).stage (corrected (exprAt s e) raw) ≠ (runAt s e).stage) :
    workEntry s e raw = setStage (setRun s e (faultCheck (exprAt s e) { runAt s e with lastValue := raw } raw).1) e
      (newStage (exprAt s e) (runAt s e).stage (corrected (exprAt s e) raw)) := by
  have hraised : (faultCheck (exprAt s e) { runAt s e with lastValue := raw } raw).2.2 = false :=
    Bool.of_not_eq_true fun hr => by rw [faultCheck_held_of_raised hr] at hheld; cases hheld
  unfold workEntry
  dsimp only
  simp only [hraised, hheld, Bool.false_eq_true, if_false]
  exact if_neg h

/-- A stage set after a run state is one run state set. -/
theorem setRun_stage (he : e < 8) (r : ExprRun) (stage : Nat) :
    setRun (setRun s e r) e { runAt (setRun s e r) e with stage := stage } = setRun s e { r with stage := stage } := by
  rw [runAt_setRun, if_pos ⟨rfl, he⟩]
  simp only [setRun, put, Vector.setIfInBounds_setIfInBounds]

theorem setStage_other (he : e < 8) (r : ExprRun) (stage : Nat)
    (h : (exprAt s e).enabled = false ∨ (exprAt s e).target ≠ .crescendo) :
    setStage (setRun s e r) e stage = setRun s e { r with stage := stage } := by
  unfold setStage
  rw [setRun_stage he, exprAt_setRun]
  refine if_neg ?_
  rw [isCrescendoEntry]
  rcases h with h | h
  · simp [h]
  · simp [h]

theorem setStage_crescendo (he : e < 8) {r : ExprRun} (hr : r.stage = (runAt s e).stage) (stage : Nat)
    (henabled : (exprAt s e).enabled = true) (htarget : (exprAt s e).target = .crescendo) :
    setStage (setRun s e r) e stage = changeEffective true (effectiveSet s) (setRun s e { r with stage := stage }) := by
  unfold setStage
  rw [setRun_stage he, exprAt_setRun, (sameStops_setRun hr).effectiveSet_eq]
  exact if_pos (by simp [isCrescendoEntry, henabled, htarget])

end OneEntry

/-- Settles O52. -/
theorem expressionWalkWorksEntriesInOrder : Obligations.ExpressionWalkWorksEntriesInOrder := by
  unfold Obligations.ExpressionWalkWorksEntriesInOrder
  refine ⟨fun s p data => ?_, fun s e raw he => ⟨workEntry_raised, workEntry_held, fun hheld hstage => ⟨?_, ?_⟩⟩⟩
  · rw [walk, walkFrom_eq s p data 8 0 (.refl s), ← List.range_eq_range',
      show entryTurn s p data = _ from funext fun u => funext fun e => entryTurn_eq s p data u e]
  · intro hother
    rw [workEntry_moved hheld hstage, setStage_other he _ _ hother]
    rfl
  · intro henabled htarget
    rw [workEntry_moved hheld hstage, setStage_crescendo he (by exact faultCheck_stage _ _ _) _ henabled htarget]
    rfl

end Sys2Proof.Proofs.Walks
end

section
/-! PROOFS. Valid frames (R134, R138, R140 to R142; O32). -/

namespace Sys2Proof.Proofs.Frames

open Sys2Proof.Machine Sys2Proof.Proofs.Claims Sys2Proof.Proofs.PortLoss Sys2Proof.Proofs.Registration
open Sys2Proof.Proofs.Reads Sys2Proof.Proofs.RecordTimers Sys2Proof.Proofs.Console Sys2Proof.Proofs.Walks

/-! ### A frame that passes its check (R134) -/

/-- The state with a valid frame of a port counted. -/
def frameCounted (s : State) (p : PortId) : State :=
  { s with counters := put s.counters (4 * portPlace p) (countUp (look s.counters (4 * portPlace p) 0)) }

theorem bump_validFrames (s : State) (p : PortId) : bump s (.validFrames p) = frameCounted s p := rfl

theorem counterAt_frameCounted (s : State) (p : PortId) :
    counterAt (frameCounted s p) (.validFrames p) = countUp (counterAt s (.validFrames p)) := by
  rw [← bump_validFrames]
  exact counterAt_bump_same (by cases p <;> decide) s

theorem counterAt_setPort (s : State) (p : PortId) (c : ConsolePort) (n : Counter) :
    counterAt (setPort s p c) n = counterAt s n := by
  cases p <;> rfl

/-- The port that a complete frame has been taken from. -/
def lineTaken (c : ConsolePort) : ConsolePort :=
  { c with receiver := .waiting, returnFrame := none }

section ValidFrame

variable {s : State} {p : PortId} {taken slots data : List Word} (hreceiver : (portAt s p).receiver = .receiving taken)
  (hframing : (portAt s p).framing ≠ .held) (hslots : taken ++ slots = data ++ [checkWord data])
  (hlength : data.length = (portAt s p).entry.dataSlots)
include hreceiver hframing hslots hlength

theorem exec_scanFrame_valid :
    exec (.scanFrame p slots) s = .next (validFrame (setPort s p (lineTaken (portAt s p))) p data) := by
  have hcomplete : (portAt s p).entry.dataSlots < (taken ++ slots).length := by
    rw [hslots, List.length_append, ← hlength]
    exact Nat.lt_succ_self _
  have hdata : (taken ++ slots).take (portAt s p).entry.dataSlots = data := by
    rw [hslots, ← hlength, List.take_left']
    rfl
  have hcheck : (taken ++ slots).getD (portAt s p).entry.dataSlots 0 = checkWord data := by
    rw [hslots, ← hlength]
    simp
  rw [exec_scanFrame_complete hreceiver hframing hcomplete, hdata, hcheck, judgeFrame, if_pos rfl, lineTaken]

end ValidFrame

theorem bump_setPort (s : State) (p : PortId) (c : ConsolePort) (n : Counter) :
    bump (setPort s p c) n = setPort (bump s n) p c := by
  cases p <;> rfl

theorem setPort_setPort (s : State) (p : PortId) (c d : ConsolePort) : setPort (setPort s p c) p d = setPort s p d := by
  cases p <;> rfl

/-- The port at the start of an ONLINE frame's contacts. -/
def lineReloaded (s : State) (p : PortId) : ConsolePort :=
  reloaded (lineTaken (portAt s p)) (s.pending.contains (.watchdogExpiry p))

/-- The state after an ONLINE frame's contacts. -/
def contactsTaken (s : State) (p : PortId) (data : List Word) : State :=
  (frameContacts (portAt s p)).foldl (takeContact p data) (setPort (frameCounted s p) p (lineReloaded s p))

theorem validFrame_online {s : State} {p : PortId} (h : (portAt s p).state = .online) (data : List Word) :
    validFrame (setPort s p (lineTaken (portAt s p))) p data = walk (contactsTaken s p data) p data := by
  have hstate : (portAt (setPort s p (lineTaken (portAt s p))) p).state = .online := by
    rw [portAt_setPort_same]
    exact h
  rw [validFrame, hstate, onlineFrame, bump_setPort, portAt_setPort_same, setPort_setPort, setPort_pending,
    bump_pending]
  rfl

/-! ### One contact (R141, R142) -/

section OneContact

variable {s : State} {p : PortId} {data : List Word} {i b : Nat}

theorem takeContact_unmapped (h : mapped (portAt s p) i b = false) : takeContact p data s (i, b) = s := if_pos h

theorem takeContact_agreeing (hmapped : mapped (portAt s p) i b = true)
    (h : (data.getD i 0).getLsbD b = (imageAt (portAt s p) i).getLsbD b) :
    takeContact p data s (i, b) = setPort s p (withDebounce (portAt s p) i b 0) := by
  unfold takeContact
  dsimp only
  rw [if_neg (by rw [hmapped]; exact Bool.noConfusion), if_pos h]

theorem takeContact_counting (hmapped : mapped (portAt s p) i b = true)
    (h : (data.getD i 0).getLsbD b ≠ (imageAt (portAt s p) i).getLsbD b)
    (hcount : debounceAt (portAt s p) i b + 1 < (slotAt (portAt s p) i).debounce) :
    takeContact p data s (i, b) = setPort s p (withDebounce (portAt s p) i b (debounceAt (portAt s p) i b + 1)) := by
  unfold takeContact
  dsimp only
  rw [if_neg (by rw [hmapped]; exact Bool.noConfusion), if_neg h, if_neg (Nat.not_le_of_lt hcount)]

/-- The state in which a contact has changed and its change is still to be handed on. -/
def contactChanged (s : State) (p : PortId) (i b : Nat) (raw : Bool) : State :=
  setPort s p (withContact (withDebounce (portAt s p) i b 0) i b raw)

theorem takeContact_changing (hmapped : mapped (portAt s p) i b = true)
    (h : (data.getD i 0).getLsbD b ≠ (imageAt (portAt s p) i).getLsbD b)
    (hcount : (slotAt (portAt s p) i).debounce ≤ debounceAt (portAt s p) i b + 1) :
    takeContact p data s (i, b) =
      handOn (contactChanged s p i b ((data.getD i 0).getLsbD b)) p i b ((data.getD i 0).getLsbD b) := by
  unfold takeContact
  dsimp only
  rw [if_neg (by rw [hmapped]; exact Bool.noConfusion), if_neg h, if_pos hcount]
  rfl

theorem slotAt_contactChanged (s : State) (p : PortId) (i b : Nat) (raw : Bool) :
    slotAt (portAt (contactChanged s p i b raw) p) i = slotAt (portAt s p) i := by
  rw [contactChanged, portAt_setPort_same]
  rfl

theorem debounceAt_withDebounce (c : ConsolePort) {i b : Nat} (hi : i < 64) (hb : b < 16) (n : Nat) :
    debounceAt (withDebounce c i b n) i b = n := look_put_same _ _ _ (by omega)

/-- The hand-on leaves the contacts of the port as they were changed. -/
theorem contact_handOn {s : State} {p : PortId} {i b : Nat} (hi : i < 64) (hb : b < 16) (raw made : Bool) :
    (imageAt (portAt (handOn (contactChanged s p i b raw) p i b made) p) i).getLsbD b = raw
      ∧ debounceAt (portAt (handOn (contactChanged s p i b raw) p i b made) p) i b = 0 := by
  have hline := (plays_handOn (contactChanged s p i b raw) p i b made).line p
  rw [SameLine, contactChanged, portAt_setPort_same] at hline
  rw [contactChanged, hline]
  refine ⟨?_, debounceAt_withDebounce (portAt s p) hi hb 0⟩
  have himage : imageAt (withContact (withDebounce (portAt s p) i b 0) i b raw) i =
      withBit (imageAt (portAt s p) i) b raw := look_put_same _ _ _ hi
  have hbit := getLsbD_withBit (imageAt (portAt s p) i) b b raw
  rw [if_pos ⟨rfl, hb⟩, ← himage] at hbit
  exact hbit

end OneContact

section HandOn

variable {s : State} {p : PortId} {i b : Nat}

theorem handOn_key_made (h : (slotAt (portAt s p) i).kind = .keys) : handOn s p i b true =
    keyMake s p (slotAt (portAt s p) i).division (slotAt (portAt s p) i).touch ((slotAt (portAt s p) i).first + b) := by
  simp [handOn, h]

theorem handOn_key_broken (h : (slotAt (portAt s p) i).kind = .keys) : handOn s p i b false =
    keyBreak s p (slotAt (portAt s p) i).division (slotAt (portAt s p) i).touch ((slotAt (portAt s p) i).first + b) := by
  simp [handOn, h]

theorem handOn_tab (h : (slotAt (portAt s p) i).kind = .tabs) (made : Bool) :
    handOn s p i b made = tabEvent s p ((slotAt (portAt s p) i).first + b) made := by
  simp [handOn, h]

theorem handOn_piston_made (h : (slotAt (portAt s p) i).kind = .pistons) :
    handOn s p i b true = pistonMake s p ((slotAt (portAt s p) i).first + b) := by
  simp [handOn, h]

theorem handOn_piston_broken (h : (slotAt (portAt s p) i).kind = .pistons) : handOn s p i b false = s := by
  simp [handOn, h]

end HandOn

/-! ### What a frame's contacts keep -/

theorem keepsFrames_takeContact (p : PortId) (data : List Word) (s : State) (x : Nat × Nat) :
    KeepsFrames p s (takeContact p data s x) := by
  unfold takeContact
  dsimp only
  split
  · rfl
  split
  · exact keepsFrames_setPort p s p _
  split
  · exact (keepsFrames_setPort p s p _).trans (keepsFrames_handOn p _ p _ _ _)
  · exact keepsFrames_setPort p s p _

theorem keepsFrames_takeContacts (p : PortId) (data : List Word) (xs : List (Nat × Nat)) (s : State) :
    KeepsFrames p s (xs.foldl (takeContact p data) s) :=
  List.foldlRecOn (motive := KeepsFrames p s) _ _ rfl fun v hv x _ => hv.trans (keepsFrames_takeContact p data v x)

theorem pending_takeContact (p : PortId) (data : List Word) (s : State) (x : Nat × Nat) :
    (takeContact p data s x).pending = s.pending := by
  unfold takeContact
  dsimp only
  split
  · rfl
  split
  · rw [setPort_pending]
  split
  · rw [(plays_handOn _ p _ _ _).frame, setPort_pending]
  · rw [setPort_pending]

theorem pending_takeContacts (p : PortId) (data : List Word) (xs : List (Nat × Nat)) (s : State) :
    (xs.foldl (takeContact p data) s).pending = s.pending :=
  List.foldlRecOn (motive := fun v => v.pending = s.pending) _ _ rfl fun v hv x _ =>
    (pending_takeContact p data v x).trans hv

theorem sameContactsLine_contactsTaken (s : State) (p : PortId) (data : List Word) :
    SameContactsLine (lineReloaded s p) (portAt (contactsTaken s p data) p) := by
  have h := sameContactsLine_takeContacts p data (frameContacts (portAt s p))
    (setPort (frameCounted s p) p (lineReloaded s p))
  rw [portAt_setPort_same] at h
  exact h

/-! ### A frame that agrees with the accepted image (R141) -/

/-- Every mapped contact reads as the accepted image has it. -/
def Agrees (c : ConsolePort) (data : List Word) : Prop :=
  ∀ i b, mapped c i b = true → (data.getD i 0).getLsbD b = (imageAt c i).getLsbD b

/-- Only debounce counts of a port have moved, and those of the listed mapped contacts to 0. -/
structure Settled (p : PortId) (xs : List (Nat × Nat)) (s u : State) : Prop where
  port : u = setPort s p { portAt s p with debounce := (portAt u p).debounce }
  zero : ∀ i b, (i, b) ∈ xs → i < 64 → b < 16 → mapped (portAt s p) i b = true → debounceAt (portAt u p) i b = 0

theorem Settled.portAt_eq {p : PortId} {xs : List (Nat × Nat)} {s u : State} (h : Settled p xs s u) :
    portAt u p = { portAt s p with debounce := (portAt u p).debounce } := by
  have hport := congrArg (fun v => portAt v p) h.port
  rwa [portAt_setPort_same] at hport

theorem debounceAt_zeroed (c : ConsolePort) (i b j d : Nat) (h : debounceAt c j d = 0) :
    debounceAt (withDebounce c i b 0) j d = 0 := by
  rw [debounceAt, withDebounce, look_put]
  split
  · rfl
  · exact h

theorem settled_takeContact {s : State} {p : PortId} {data : List Word} (hagrees : Agrees (portAt s p) data)
    {xs : List (Nat × Nat)} {u : State} (h : Settled p xs s u) (x : Nat × Nat) :
    Settled p (xs ++ [x]) s (takeContact p data u x) := by
  obtain ⟨i, b⟩ := x
  have hport := h.portAt_eq
  have hsame (j d : Nat) : mapped (portAt u p) j d = mapped (portAt s p) j d := by rw [hport]; rfl
  cases hmapped : mapped (portAt s p) i b with
  | false =>
    rw [takeContact_unmapped ((hsame i b).trans hmapped)]
    refine ⟨h.port, fun j d hmem hj hd hm => ?_⟩
    rcases List.mem_append.mp hmem with hmem | hmem
    · exact h.zero j d hmem hj hd hm
    · obtain ⟨rfl, rfl⟩ := Prod.mk.inj (List.mem_singleton.mp hmem)
      rw [hm] at hmapped
      cases hmapped
  | true =>
    have hreads : (data.getD i 0).getLsbD b = (imageAt (portAt u p) i).getLsbD b := by
      rw [hport]
      exact hagrees i b hmapped
    rw [takeContact_agreeing ((hsame i b).trans hmapped) hreads]
    refine ⟨?_, fun j d hmem hj hd hm => ?_⟩
    · rw [portAt_setPort_same]
      conv_lhs => rw [h.port, setPort_setPort, portAt_setPort_same]
      conv_lhs => rw [withDebounce]
      rfl
    · rw [portAt_setPort_same]
      rcases List.mem_append.mp hmem with hmem | hmem
      · exact debounceAt_zeroed _ i b j d (h.zero j d hmem hj hd hm)
      · obtain ⟨rfl, rfl⟩ := Prod.mk.inj (List.mem_singleton.mp hmem)
        exact debounceAt_withDebounce _ hj hd 0

theorem settled_takeContacts {s : State} {p : PortId} {data : List Word} (hagrees : Agrees (portAt s p) data)
    (xs : List (Nat × Nat)) : Settled p xs s (xs.foldl (takeContact p data) s) := by
  induction xs using List.reverseRecOn with
  | nil =>
    refine ⟨?_, fun i b hmem => by cases hmem⟩
    cases p <;> rfl
  | append_singleton xs x ih =>
    rw [List.foldl_append]
    exact settled_takeContact hagrees ih x

/-- The contacts of a frame that agrees leave the image and set the counts of the mapped contacts to 0. -/
theorem settled_contactsTaken {s : State} {p : PortId} {data : List Word} (hagrees : Agrees (portAt s p) data) :
    Settled p (frameContacts (portAt s p)) (setPort (frameCounted s p) p (lineReloaded s p))
      (contactsTaken s p data) :=
  settled_takeContacts (by rw [portAt_setPort_same]; exact hagrees) _

/-- The walk of a list that begins with a disabled entry does nothing. -/
theorem walk_disabled {s : State} (h : (exprAt s 0).enabled = false) (p : PortId) (data : List Word) :
    walk s p data = s := if_pos h

/-! ### Frames of an ONLINE port (O32) -/

theorem exec_watchdogExpiry_overtaken {s : State} {p : PortId} (h : (portAt s p).overtaken = true) :
    exec (.watchdogExpiry p) s = .next (setPort s p { portAt s p with overtaken := false }) := if_pos h

theorem step_cons {s : State} {c : Instr} {rest : List Instr} (h : s.pending = c :: rest) :
    step s = exec c { s with pending := rest } := by
  rw [step, h]

/-- An expiry that waits behind the frame does not take place. -/
theorem step_overtaken {s t : State} {p : PortId} {rest : List Instr} (hpending : s.pending = .watchdogExpiry p :: rest)
    (ht : t.pending = s.pending)
    (hovertaken : (portAt t p).overtaken = ((portAt s p).overtaken || s.pending.contains (.watchdogExpiry p))) :
    step t = .next (setPort { t with pending := rest } p { portAt t p with overtaken := false }) := by
  have hover : (portAt { t with pending := rest } p).overtaken = true := by
    have hsame : portAt { t with pending := rest } p = portAt t p := by cases p <;> rfl
    rw [hsame, hovertaken, hpending]
    simp
  rw [step_cons (ht.trans hpending), exec_watchdogExpiry_overtaken hover]
  cases p <;> rfl

section OnlineFrame

variable {s : State} {p : PortId} {data : List Word}

theorem portAt_onlineWalk (s : State) (p : PortId) (data : List Word) :
    SameContactsLine (lineReloaded s p) (portAt (walk (contactsTaken s p data) p data) p) := by
  rw [portAt_of_walkFrame (walkFrame_walk _ p data)]
  exact sameContactsLine_contactsTaken s p data

theorem counterAt_onlineWalk (s : State) (p : PortId) (data : List Word) :
    counterAt (walk (contactsTaken s p data) p data) (.validFrames p) = countUp (counterAt s (.validFrames p)) := by
  have hwalk := (sparesPorts_walk (contactsTaken s p data) p data).keepsFrames p
  have htaken := keepsFrames_takeContacts p data (frameContacts (portAt s p))
    (setPort (frameCounted s p) p (lineReloaded s p))
  exact Eq.trans hwalk (Eq.trans htaken ((counterAt_setPort _ p _ _).trans (counterAt_frameCounted s p)))

theorem pending_onlineWalk (s : State) (p : PortId) (data : List Word) :
    (walk (contactsTaken s p data) p data).pending = s.pending := by
  have hwalk := congrArg State.pending (walkFrame_walk (contactsTaken s p data) p data)
  refine hwalk.trans ((pending_takeContacts p data _ _).trans ?_)
  rw [setPort_pending]
  rfl

/-- A frame that agrees, where no expression entry is worked. -/
theorem onlineWalk_agreeing (hagrees : Agrees (portAt s p) data) (hdisabled : (exprAt s 0).enabled = false) :
    (walk (contactsTaken s p data) p data).table = s.table ∧ (walk (contactsTaken s p data) p data).drawn = s.drawn
      ∧ (portAt (walk (contactsTaken s p data) p data) p).image = (portAt s p).image
      ∧ ∀ i b, i < 64 → b < 16 → mapped (portAt s p) i b = true →
        debounceAt (portAt (walk (contactsTaken s p data) p data) p) i b = 0 := by
  have hsettled := settled_contactsTaken hagrees
  have hport := hsettled.port
  have hfirst : (exprAt (contactsTaken s p data) 0).enabled = false := by
    rw [hport, exprAt_setPort, exprAt_setPort]
    exact hdisabled
  rw [walk_disabled hfirst]
  refine ⟨?_, ?_, ?_, fun i b hi hb hmapped => ?_⟩
  · rw [hport, setPort_table, setPort_table]
    rfl
  · rw [hport, setPort_drawn, setPort_drawn]
    rfl
  · rw [hsettled.portAt_eq, portAt_setPort_same]
    rfl
  · refine hsettled.zero i b (KeysAndTabs.mem_frameContacts.mpr ⟨?_, hb⟩) hi hb ?_
    · exact of_decide_eq_true (Bool.and_eq_true_iff.mp hmapped).1
    · rw [portAt_setPort_same]
      exact hmapped

end OnlineFrame

/-- Settles O32. -/
theorem onlineFramesReloadAndDebounce : Obligations.OnlineFramesReloadAndDebounce := by
  unfold Obligations.OnlineFramesReloadAndDebounce
  refine ⟨fun s p taken slots data hreceiver hframing hslots hlength honline => ?_,
    fun s p data i b hi hb hmapped => ⟨takeContact_agreeing hmapped, takeContact_counting hmapped, fun hdiffers hcount => ?_⟩,
    fun s p data i b => takeContact_unmapped⟩
  · have hline := portAt_onlineWalk s p data
    refine ⟨walk (contactsTaken s p data) p data, ?_, ?_, ?_, ?_, counterAt_onlineWalk s p data, ?_,
      fun _ hagrees hdisabled => onlineWalk_agreeing hagrees hdisabled, fun rest hpending => ?_⟩
    · rw [exec_scanFrame_valid hreceiver hframing hslots hlength, validFrame_online honline]
    · rw [hline]
      exact honline
    · rw [hline]
      rfl
    · rw [hline]
      rfl
    · rw [contactsTaken, frameContacts, ← hlength]
      rfl
    · refine step_overtaken hpending (pending_onlineWalk s p data) ?_
      rw [hline]
      rfl
  · rw [takeContact_changing hmapped hdiffers hcount]
    obtain ⟨himage, hdebounce⟩ := contact_handOn (s := s) (p := p) hi hb ((data.getD i 0).getLsbD b)
      ((data.getD i 0).getLsbD b)
    have hslot := slotAt_contactChanged s p i b ((data.getD i 0).getLsbD b)
    rw [← hslot]
    refine ⟨himage, hdebounce, fun hkind hraw => ?_, fun hkind hraw => ?_, fun hkind => ?_, fun hkind hraw => ?_,
      fun hkind hraw => ?_⟩
    · rw [hraw] at hkind ⊢
      exact handOn_key_made hkind
    · rw [hraw] at hkind ⊢
      exact handOn_key_broken hkind
    · exact handOn_tab hkind _
    · rw [hraw] at hkind ⊢
      exact handOn_piston_made hkind
    · rw [hraw] at hkind ⊢
      exact handOn_piston_broken hkind

end Sys2Proof.Proofs.Frames
end

section
/-! PROOFS. The held keys of a port played in order (R93, R95), and the valid frames that bring a port ONLINE (R136,
R137; O31). -/

namespace Sys2Proof.Proofs.Frames

open Sys2Proof.Machine Sys2Proof.Proofs.Claims Sys2Proof.Proofs.PortLoss Sys2Proof.Proofs.Registration
open Sys2Proof.Proofs.Reads Sys2Proof.Proofs.RecordTimers Sys2Proof.Proofs.KeysAndTabs Sys2Proof.Proofs.Console
open Sys2Proof.Proofs.Walks

/-! ### Keys and touches as one number (R93 step 5) -/

/-- The touch of a place of the order in which held keys are played: key by key, FIRST before SECOND. -/
def touchAt (x : Nat) : Touch := if x % 2 = 0 then .first else .second

/-- A place of the order is held in a port's image. -/
def heldAt (c : ConsolePort) (d x : Nat) : Bool := keyMade c d (touchAt x) (x / 2)

/-- The key make of a place. -/
def makeAt (p : PortId) (d : Nat) (s : State) (x : Nat) : State := keyMake s p d (touchAt x) (x / 2)

/-- A place played where the port's image holds it. -/
def playAt (p : PortId) (d : Nat) (s : State) (x : Nat) : State :=
  if heldAt (portAt s p) d x then makeAt p d s x else s

theorem touchAt_even (k : Nat) : touchAt (2 * k) = .first := if_pos (Nat.mul_mod_right 2 k)

theorem touchAt_odd (k : Nat) : touchAt (2 * k + 1) = .second := if_neg (by omega)

theorem playHeldKey_eq (p : PortId) (d : Nat) (s : State) (k : Nat) :
    playHeldKey p d s k = playAt p d (playAt p d s (2 * k)) (2 * k + 1) := by
  have heven : 2 * k / 2 = k := by omega
  have hodd : (2 * k + 1) / 2 = k := by omega
  unfold playAt heldAt makeAt
  rw [touchAt_even, touchAt_odd, heven, hodd]
  rfl

theorem foldl_playHeldKey (p : PortId) (d n : Nat) (s : State) :
    (List.range n).foldl (playHeldKey p d) s = (List.range (2 * n)).foldl (playAt p d) s := by
  induction n with
  | zero => rfl
  | succ n ih =>
    rw [show 2 * (n + 1) = 2 * n + 1 + 1 from rfl, List.range_succ, List.range_succ, List.range_succ, List.foldl_append,
      List.foldl_append, List.foldl_append, ih]
    exact playHeldKey_eq p d _ n

/-- The image stands while held keys are played. -/
theorem foldl_playAt (p : PortId) (d : Nat) (xs : List Nat) {c : ConsolePort} {s : State} (h : portAt s p = c) :
    xs.foldl (playAt p d) s = (xs.filter (heldAt c d)).foldl (makeAt p d) s := by
  induction xs generalizing s with
  | nil => rfl
  | cons x xs ih =>
    rw [List.foldl_cons, List.filter_cons, playAt, h]
    by_cases hheld : heldAt c d x = true
    · rw [if_pos hheld, if_pos hheld, List.foldl_cons]
      exact ih ((portAt_of_tableFrame (tableFrame_keyMake s p d _ _) p).trans h)
    · rw [if_neg hheld, if_neg hheld]
      exact ih h

/-- The held places of a division. -/
def heldPlaces (c : ConsolePort) (d : Nat) : List Nat :=
  (List.range (2 * Config.compass d)).filter (heldAt c d)

theorem playHeldKeys_eq (s : State) (p : PortId) (d : Nat) :
    playHeldKeys s p d = (heldPlaces (portAt s p) d).foldl (makeAt p d) s := by
  rw [playHeldKeys, foldl_playHeldKey, foldl_playAt p d _ rfl, heldPlaces]

theorem heldAt_iff {c : ConsolePort} {d x : Nat} (hx : x / 2 < Config.compass d) :
    heldAt c d x = true ↔ KeyReadsMade c d (touchAt x) (x / 2) := keyMade_iff hx

/-- The held places, as the statements list them. -/
theorem heldPlaces_eq {c : ConsolePort} {d : Nat} {xs : List Nat} (hasc : xs.Pairwise (· < ·))
    (hmem : ∀ x, x ∈ xs ↔ x / 2 < Config.compass d ∧ KeyReadsMade c d (touchAt x) (x / 2)) : heldPlaces c d = xs := by
  refine (eq_filter_range_of_pairwise hasc fun x => (hmem x).trans ?_).symm
  have hlt : x < 2 * Config.compass d ↔ x / 2 < Config.compass d := by omega
  rw [hlt]
  exact and_congr_right fun hx => (heldAt_iff hx).symm

/-! ### Divisions, keys and touches as one number (R95 step 2) -/

/-- A place of an arrival's order is played: the port holds its division, and its image holds the place. -/
def arrivesAt (s : State) (p : PortId) (c : ConsolePort) (x : Nat) : Bool :=
  holds s p (x / 128) && decide (x % 128 / 2 < Config.compass (x / 128)) && heldAt c (x / 128) (x % 128)

theorem compass_le (d : Nat) : Config.compass d ≤ 61 := by
  unfold Config.compass
  split <;> decide

theorem place_div {m x : Nat} (hx : x < 128) : (128 * m + x) / 128 = m := by omega

theorem place_mod {m x : Nat} (hx : x < 128) : (128 * m + x) % 128 = x := by omega

/-- The places of one division among those of an arrival. -/
theorem filter_arrivesAt (s : State) (p : PortId) (c : ConsolePort) (m : Nat) :
    ((List.range 128).filter fun x => arrivesAt s p c (128 * m + x)) =
      if holds s p m then heldPlaces c m else [] := by
  by_cases hholds : holds s p m = true
  · rw [if_pos hholds]
    refine eq_filter_range_of_pairwise (List.pairwise_lt_range.filter _) fun x => ?_
    have hcompass := compass_le m
    rw [List.mem_filter, List.mem_range]
    constructor
    · rintro ⟨hx, h⟩
      rw [arrivesAt, place_div hx, place_mod hx, hholds, Bool.true_and, Bool.and_eq_true, decide_eq_true_eq] at h
      exact ⟨by omega, h.2⟩
    · rintro ⟨hx, h⟩
      have hlt : x < 128 := by omega
      refine ⟨hlt, ?_⟩
      rw [arrivesAt, place_div hlt, place_mod hlt, hholds, Bool.true_and, Bool.and_eq_true, decide_eq_true_eq]
      exact ⟨by omega, h⟩
  · rw [if_neg hholds, List.filter_eq_nil_iff]
    intro x hx h
    rw [arrivesAt, place_div (List.mem_range.mp hx), Bool.of_not_eq_true hholds] at h
    cases h

/-- The key make of a place of an arrival's order. -/
def makePlace (p : PortId) (s : State) (x : Nat) : State :=
  keyMake s p (x / 128) (if x % 2 = 0 then .first else .second) (x % 128 / 2)

theorem makePlace_eq (p : PortId) (s : State) {m x : Nat} (hx : x < 128) :
    makePlace p s (128 * m + x) = makeAt p m s x := by
  have htouch : (if (128 * m + x) % 2 = 0 then Touch.first else .second) = touchAt x := by
    rw [touchAt, show (128 * m + x) % 2 = x % 2 by omega]
  rw [makePlace, makeAt, htouch, place_div hx, place_mod hx]

theorem heldPlaces_lt {c : ConsolePort} {d x : Nat} (h : x ∈ heldPlaces c d) : x < 128 := by
  have hlt := List.mem_range.mp (List.mem_filter.mp h).1
  have hcompass := compass_le d
  omega

theorem foldl_makePlace (s : State) (p : PortId) (c : ConsolePort) (m : Nat) (u : State) :
    (((List.range 128).map (128 * m + ·)).filter (arrivesAt s p c)).foldl (makePlace p) u =
      if holds s p m then (heldPlaces c m).foldl (makeAt p m) u else u := by
  rw [List.filter_map, List.foldl_map]
  rw [show ((List.range 128).filter (arrivesAt s p c ∘ (128 * m + ·))) =
    if holds s p m then heldPlaces c m else [] from filter_arrivesAt s p c m]
  by_cases hholds : holds s p m = true
  · rw [if_pos hholds, if_pos hholds]
    exact List.foldl_ext _ _ _ fun v x hx => makePlace_eq p v (heldPlaces_lt hx)
  · rw [if_neg hholds, if_neg hholds]
    rfl

/-- One division's turn in an arrival. -/
def divisionTurn (p : PortId) (s : State) (d : Nat) : State :=
  if holds s p d then playHeldKeys s p d else s

theorem tableFrame_divisionTurn (p : PortId) (s : State) (d : Nat) : TableFrame s (divisionTurn p s d) := by
  unfold divisionTurn
  split
  · exact tableFrame_playHeldKeys s p d
  · exact .refl s

theorem foldl_divisionTurn (s : State) (p : PortId) (m : Nat) :
    (List.range m).foldl (divisionTurn p) s =
      ((List.range (128 * m)).filter (arrivesAt s p (portAt s p))).foldl (makePlace p) s := by
  induction m with
  | zero => rfl
  | succ m ih =>
    have hframe : TableFrame s ((List.range m).foldl (divisionTurn p) s) :=
      List.foldlRecOn (motive := TableFrame s) _ _ (.refl s) fun v hv d _ => hv.trans (tableFrame_divisionTurn p v d)
    rw [List.range_succ, List.foldl_append, Nat.mul_succ, List.range_add, List.filter_append, List.foldl_append,
      foldl_makePlace, ← ih, List.foldl_cons, List.foldl_nil, divisionTurn, holds_of_tableFrame hframe,
      playHeldKeys_eq, portAt_of_tableFrame hframe]

/-- A division above 5 is held by no port. -/
theorem lt_of_holds {s : State} {p : PortId} {d : Nat} (h : holds s p d = true) : d < 6 := by
  by_contra hd
  rw [holds, granting, look_beyond _ _ (Nat.le_of_not_lt hd)] at h
  cases p <;> cases h

/-- The keys an arrival plays, as the statement lists them. -/
theorem foldl_divisions_eq {s : State} {p : PortId} {xs : List Nat} (hasc : xs.Pairwise (· < ·))
    (hmem : ∀ x, x ∈ xs ↔ granting s (x / 128) = some p ∧ x % 128 / 2 < Config.compass (x / 128)
      ∧ KeyReadsMade (portAt s p) (x / 128) (if x % 2 = 0 then .first else .second) (x % 128 / 2)) :
    (List.range 6).foldl (divisionTurn p) s = xs.foldl (makePlace p) s := by
  have hlist : xs = (List.range (128 * 6)).filter (arrivesAt s p (portAt s p)) := by
    refine eq_filter_range_of_pairwise hasc fun x => (hmem x).trans ?_
    have htouch : (if x % 2 = 0 then Touch.first else .second) = touchAt (x % 128) := by
      rw [touchAt, show x % 128 % 2 = x % 2 by omega]
    rw [htouch, arrivesAt, Bool.and_eq_true, Bool.and_eq_true, decide_eq_true_eq, and_assoc]
    constructor
    · rintro ⟨hgrant, hkey, hmade⟩
      have hholds := holds_iff.mpr hgrant
      have hdivision := lt_of_holds hholds
      exact ⟨by omega, hholds, hkey, (heldAt_iff hkey).mpr hmade⟩
    · rintro ⟨-, hholds, hkey, hheld⟩
      exact ⟨holds_iff.mp hholds, hkey, (heldAt_iff hkey).mp hheld⟩
  rw [foldl_divisionTurn, ← hlist]

/-! ### The drawn set after an arrival (R95 step 1) -/

/-- A stop that an arrival draws from its tabs. -/
def Taken (s : State) (p : PortId) (n : Nat) : Prop :=
  (stopAt s n).kind ≠ .unused ∧ (stopAt s n).division ≠ 5 ∧ granting s (stopAt s n).division = some p
    ∧ TabMapped (portAt s p) n ∧ (portAt s p).recallSlot.driveOn.getLsbD n = false
    ∧ (portAt s p).recallSlot.driveOff.getLsbD n = false

theorem takesTab_iff {s : State} {p : PortId} {n : Nat} (hn : n < 256) : takesTab s p n = true ↔ Taken s p n := by
  simp only [takesTab, Taken, Bool.and_eq_true, bne_iff_ne, ne_eq, Bool.not_eq_true', holds_iff, hasTab_iff hn,
    driveSet_eq_false_iff, and_assoc]

theorem getLsbD_drawnAtArrival (s : State) (p : PortId) {n : Nat} (hn : n < 256) :
    (drawnAtArrival s p).getLsbD n =
      if takesTab s p n then tabMade (portAt s p) n else s.drawn.getLsbD n := by
  unfold drawnAtArrival tabsMade
  simp only [BitVec.getLsbD_or, BitVec.getLsbD_and, BitVec.getLsbD_not, getLsbD_bitsOf, hn, decide_true, Bool.true_and]
  cases takesTab s p n <;> simp

/-! ### The port that enters ONLINE (R137) -/

theorem imageAt_portOnline (c : ConsolePort) (data : List Word) {i : Nat} (hi : i < 64) :
    imageAt (portOnline c data) i = baselineWord c data i := by
  change look (baselineImage c data) i 0 = _
  simp [look, baselineImage, hi]

/-- The state that a port's arrival begins from. -/
def enteredOnline (s : State) (p : PortId) (data : List Word) : State :=
  raise (setPort (frameCounted s p) p (portOnline (lineTaken (portAt s p)) data)) .portOnline (.port p)

theorem portAt_enteredOnline (s : State) (p : PortId) (data : List Word) :
    portAt (enteredOnline s p data) p = portOnline (lineTaken (portAt s p)) data := by
  rw [enteredOnline, portAt_raise, portAt_setPort_same]

theorem enteredOnline_eq (s : State) (p : PortId) (data : List Word) : enteredOnline s p data =
    raise (setPort (frameCounted s p) p { portAt s p with
      state := .online, receiver := .waiting, returnFrame := none, good := 0
      image := (portAt (enteredOnline s p data) p).image
      debounce := Vector.replicate 1024 0, watchdog := some (portAt s p).entry.watchdog }) .portOnline (.port p) := by
  rw [portAt_enteredOnline]
  rfl

section GoodFrames

variable {s : State} {p : PortId} (hstate : (portAt s p).state = .seeking ∨ (portAt s p).state = .lost)
include hstate

theorem validFrame_good (data : List Word) : validFrame (setPort s p (lineTaken (portAt s p))) p data =
    goodFrame (setPort (frameCounted s p) p (lineTaken (portAt s p))) p data := by
  have hline : (portAt (setPort s p (lineTaken (portAt s p))) p).state = (portAt s p).state := by
    rw [portAt_setPort_same]
    rfl
  rw [validFrame, hline, bump_setPort]
  rcases hstate with h | h
  · rw [h]
    rfl
  · rw [h]
    rfl

theorem validFrame_below (data : List Word) (h : (portAt s p).good + 1 < (portAt s p).entry.recovery) :
    validFrame (setPort s p (lineTaken (portAt s p))) p data =
      setPort (frameCounted s p) p { lineTaken (portAt s p) with good := (portAt s p).good + 1 } := by
  rw [validFrame_good hstate, goodFrame, portAt_setPort_same, setPort_setPort]
  exact if_neg (Nat.not_le_of_lt h)

theorem validFrame_recovered (data : List Word) (h : (portAt s p).entry.recovery ≤ (portAt s p).good + 1) :
    validFrame (setPort s p (lineTaken (portAt s p))) p data =
      walk (arrival (enteredOnline s p data) p) p data := by
  rw [validFrame_good hstate, goodFrame, portAt_setPort_same, enterOnline, portAt_setPort_same, setPort_setPort]
  exact if_pos h

end GoodFrames

theorem walkFrame_online (a : State) (p : PortId) (data : List Word) : WalkFrame a (walk (arrival a p) p data) :=
  (walkFrame_arrival a p).trans (walkFrame_walk _ p data)

/-- The stops of an arrival, taken from the tabs without claims (R95 step 1). -/
def tabsTaken (a : State) (p : PortId) : State :=
  changeEffective false (effectiveSet a) (setDrawn a (drawnAtArrival a p))

theorem arrival_divisions (a : State) (p : PortId) :
    arrival a p = (List.range 6).foldl (divisionTurn p) (tabsTaken a p) := rfl

theorem walkFrame_tabsTaken (a : State) (p : PortId) : WalkFrame a (tabsTaken a p) :=
  (walkFrame_setDrawn a _).trans (walkFrame_changeEffective false _ _)

theorem granting_of_walkFrame {s t : State} (h : WalkFrame s t) (d : Nat) : granting t d = granting s d := by
  rw [WalkFrame] at h
  rw [h]
  rfl

/-- An arrival, with the keys played as the statement lists them. -/
theorem arrival_eq {a : State} {p : PortId} {xs : List Nat} (hasc : xs.Pairwise (· < ·))
    (hmem : ∀ x, x ∈ xs ↔ granting a (x / 128) = some p ∧ x % 128 / 2 < Config.compass (x / 128)
      ∧ KeyReadsMade (portAt a p) (x / 128) (if x % 2 = 0 then .first else .second) (x % 128 / 2)) :
    arrival a p = xs.foldl (makePlace p) (tabsTaken a p) := by
  rw [arrival_divisions]
  refine foldl_divisions_eq hasc fun x => ?_
  rw [granting_of_walkFrame (walkFrame_tabsTaken a p), portAt_of_walkFrame (walkFrame_tabsTaken a p)]
  exact hmem x

theorem sparesPorts_online (a : State) (p : PortId) (data : List Word) :
    SparesPorts a (walk (arrival a p) p data) :=
  (sparesPorts_arrival a p).trans (sparesPorts_walk _ p data)

theorem counterAt_enteredOnline (s : State) (p : PortId) (data : List Word) (c : Counter) :
    counterAt (enteredOnline s p data) c = counterAt (frameCounted s p) c := by
  rw [enteredOnline, ← counterAt_setPort (frameCounted s p) p (portOnline (lineTaken (portAt s p)) data) c]
  rfl

theorem place_ungranted_lt (q : PortId) : Counter.place (.ungranted q) < 8 := by cases q <;> decide

theorem place_validFrames_lt (q : PortId) : Counter.place (.validFrames q) < 8 := by cases q <;> decide

/-- Settles O31. -/
theorem validFramesBringThePortOnline : Obligations.ValidFramesBringThePortOnline := by
  unfold Obligations.ValidFramesBringThePortOnline
  intro s p taken slots data hreceiver hframing hslots hlength hstate
  rw [exec_scanFrame_valid hreceiver hframing hslots hlength]
  refine ⟨fun hbelow => by rw [validFrame_below hstate data hbelow]; rfl, fun hrecovered => ?_⟩
  have hframe := walkFrame_online (enteredOnline s p data) p data
  have hspares := sparesPorts_online (enteredOnline s p data) p data
  have hport := portAt_of_walkFrame hframe p
  have hentered := portAt_enteredOnline s p data
  have hstop (n : Nat) : stopAt (enteredOnline s p data) n = stopAt s n := by
    rw [enteredOnline, stopAt_raise, stopAt_setPort]
    rfl
  have hgrant (d : Nat) : granting (enteredOnline s p data) d = granting s d := by
    rw [enteredOnline, granting_raise, granting_setPort]
    rfl
  refine ⟨enteredOnline s p data, drawnAtArrival (enteredOnline s p data) p, _,
    congrArg Host.Outcome.next (validFrame_recovered hstate data hrecovered), enteredOnline_eq s p data,
    (congrArg ConsolePort.image hport).symm, fun n hn => ?_, fun xs hasc hmem => ?_, ?_, ?_, ?_, ?_,
    fun i b hi hb => ?_, ?_, fun q => ?_, ?_, ?_, ?_, ?_, ?_, ?_⟩
  · have htaken : takesTab (enteredOnline s p data) p n = true ↔ Taken s p n := by
      rw [takesTab_iff hn, Taken, hstop, hgrant, hentered]
      rfl
    rw [getLsbD_drawnAtArrival _ p hn]
    refine ⟨fun h => ?_, fun h => ?_⟩
    · rw [if_pos (htaken.mpr h)]
      exact tabMade_iff hn
    · rw [if_neg fun hn => h (htaken.mp hn), enteredOnline, raise_drawn, setPort_drawn]
      rfl
  · rw [arrival_eq hasc fun x => by rw [hgrant]; exact hmem x]
    rfl
  · rw [hport, hentered]
    rfl
  · rw [hport, hentered]
    rfl
  · rw [hport, hentered]
    rfl
  · rw [hport, hentered]
    rfl
  · rw [hport, hentered, imageAt_portOnline _ data hi, baselineWord, getLsbD_bitsOf]
    simp only [hb, decide_true, Bool.true_and]
    rfl
  · rw [hspares.counters _ (place_validFrames_lt p), counterAt_enteredOnline, counterAt_frameCounted]
  · rw [hspares.counters _ (place_ungranted_lt q), counterAt_enteredOnline, ← bump_validFrames]
    exact counterAt_bump_ne (by cases p <;> cases q <;> decide) s
  · refine hspares.pending.trans ?_
    rw [enteredOnline, raise_pendingCauses, getLsbD_withBit]
    rfl
  · refine hspares.details.trans (look_put_same _ _ _ ?_)
    decide
  · rw [congrArg State.grants hframe, enteredOnline, raise_grants, setPort_grants]
    rfl
  · rw [congrArg State.combination hframe, enteredOnline, raise_combination, setPort_combination]
    rfl
  · rw [congrArg State.mode hframe, enteredOnline, raise_mode, setPort_mode]
    rfl
  · rw [congrArg State.links hframe, enteredOnline, raise_links, setPort_links]
    rfl

end Sys2Proof.Proofs.Frames
end

section
/-! PROOFS. The grant write (R82, R93; O12). -/

namespace Sys2Proof.Proofs.Grants

open Sys2Proof.Machine Sys2Proof.Proofs.ServicePort Sys2Proof.Proofs.Reads Sys2Proof.Proofs.Claims
open Sys2Proof.Proofs.PortLoss Sys2Proof.Proofs.Registration Sys2Proof.Proofs.Tables Sys2Proof.Proofs.Entries
open Sys2Proof.Proofs.Releases Sys2Proof.Proofs.Changes Sys2Proof.Proofs.KeysAndTabs Sys2Proof.Proofs.Frames

/-! ### A release of no claim -/

theorem visitedBy_self {hit : Nat → Claim → Bool} (h : ∀ i c, hit i c = false) (s : State) : VisitedBy hit s s := by
  have hmiss (i : Nat) (r : Record) : losesLast hit i r = false := losesLast_of_miss (h i)
  refine ⟨rfl, rfl, fun i => ?_, fun k _ => ?_⟩
  · cases hr : recordAt s i with
    | none => rfl
    | some r => simp [hmiss, h]
  · have hgiven (i : Nat) : givenBack hit s k i = 0 := by
      unfold givenBack
      split
      · rfl
      · exact if_neg fun hlast => by rw [hmiss] at hlast; exact Bool.noConfusion hlast.2.1
    have hstays (i : Nat) : leavesList hit s k i = false := by
      unfold leavesList
      split
      · rfl
      · rw [hmiss, Bool.and_false]
    have hsum : ((List.range 448).map (givenBack hit s k)).sum = 0 := List.sum_eq_zero fun x hx => by
      obtain ⟨i, -, rfl⟩ := List.mem_map.mp hx
      exact hgiven i
    rw [hsum]
    simp [hstays]

theorem releasedBy_self {hit : Nat → Claim → Bool} (h : ∀ i c, hit i c = false) (s : State) : ReleasedBy hit s s := by
  refine ⟨s, s, visitedBy_self h s, ?_, rfl, rfl, rfl⟩
  simp

/-! ### The steps of a grant change (R93) -/

/-- Step 1's state: the grant stored and the old holder's claims of the division released. -/
def grantReleased (s : State) (d : Nat) (q : Option PortId) : State :=
  releaseHolder { s with grants := put s.grants d q } d (granting s d)

/-- Step 2's: the old holder's drives of the division cancelled. -/
def grantLeft (s : State) (d : Nat) (q : Option PortId) : State :=
  undriveHolder (grantReleased s d q) d (granting s d)

/-- Step 3's: the stops of the division drawn as the new holder's tabs show. -/
def grantDrawn (s : State) (d : Nat) (q : Option PortId) : State :=
  setDrawn (grantLeft s d q) (drawnFromTabs (grantLeft s d q) d q)

/-- Step 4's: the effective set changed without claims. -/
def grantChanged (s : State) (d : Nat) (q : Option PortId) : State :=
  changeEffective false (effectiveSet s) (grantDrawn s d q)

theorem grantChange_eq (s : State) (d : Nat) (q : Option PortId) :
    grantChange s d q = playHolder (grantChanged s d q) d q := rfl

section Steps

variable (s : State) (d : Nat) (q : Option PortId)

theorem grantReleased_frame : grantReleased s d q = { s with
    grants := put s.grants d q, table := (grantReleased s d q).table, rails := (grantReleased s d q).rails
    counters := (grantReleased s d q).counters } := by
  unfold grantReleased releaseHolder
  cases granting s d with
  | none => rfl
  | some p => exact releaseRequest_frame { s with grants := put s.grants d q } _

/-- The claims that a grant change takes: those of the old holder in the division. -/
def leavesWith (s : State) (d : Nat) (c : Claim) : Bool := granting s d == some c.port && c.division == d

theorem releasedBy_grantReleased : ReleasedBy (fun _ c => leavesWith s d c) s (grantReleased s d q) := by
  unfold grantReleased releaseHolder leavesWith
  cases hold : granting s d with
  | none => exact releasedBy_self (fun _ _ => rfl) s
  | some p =>
    have h : ReleasedBy (hits (.division p d)) s (releaseRequest { s with grants := put s.grants d q } (.division p d)) :=
      releasedBy_releaseRequest { s with grants := put s.grants d q } _
    have hhit : hits (.division p d) = fun _ c => some p == some c.port && c.division == d := by
      funext i c
      rw [Bool.eq_iff_iff]
      simp only [hits, matchesPattern, Bool.and_eq_true, beq_iff_eq, Option.some.injEq]
      exact and_congr_left fun _ => eq_comm
    rwa [hhit] at h

theorem portAt_grantReleased (p : PortId) : portAt (grantReleased s d q) p = portAt s p := by
  rw [grantReleased_frame]
  cases p <;> rfl

theorem stopAt_grantReleased (n : Nat) : stopAt (grantReleased s d q) n = stopAt s n := by
  rw [grantReleased_frame]
  rfl

theorem grantLeft_of_none (h : granting s d = none) : grantLeft s d q = grantReleased s d q := by
  rw [grantLeft, h]
  rfl

theorem grantLeft_of_some {p : PortId} (h : granting s d = some p) :
    grantLeft s d q = undrive (grantReleased s d q) p (stopsOf (grantReleased s d q) d) := by
  rw [grantLeft, h]
  rfl

/-- Step 2 is of the ports alone. -/
theorem grantLeft_frame : grantLeft s d q = { grantReleased s d q with
    portA := (grantLeft s d q).portA, portB := (grantLeft s d q).portB } := by
  cases h : granting s d with
  | none =>
    rw [grantLeft_of_none s d q h]
  | some p =>
    rw [grantLeft_of_some s d q h]
    cases p <;> rfl

/-- The port of the old holder: the division's stops leave its drive set. -/
def leftPort (s : State) (c : ConsolePort) (d : Nat) : ConsolePort :=
  { c with
    recallSlot := { c.recallSlot with
      driveOn := c.recallSlot.driveOn &&& ~~~ stopsOf s d, driveOff := c.recallSlot.driveOff &&& ~~~ stopsOf s d } }

theorem stopsOf_grantReleased : stopsOf (grantReleased s d q) d = stopsOf s d := by
  unfold stopsOf
  simp only [stopAt_grantReleased]

theorem portAt_grantLeft_old {p : PortId} (h : granting s d = some p) :
    portAt (grantLeft s d q) p = leftPort s (portAt s p) d := by
  rw [grantLeft_of_some s d q h, undrive, portAt_setPort_same, portAt_grantReleased, stopsOf_grantReleased]
  rfl

theorem portAt_grantLeft_other {p : PortId} (h : granting s d ≠ some p) :
    portAt (grantLeft s d q) p = portAt s p := by
  cases hold : granting s d with
  | none => rw [grantLeft_of_none s d q hold, portAt_grantReleased]
  | some r =>
    rw [grantLeft_of_some s d q hold, undrive, portAt_setPort_ne _ _ fun hr => h (hold.trans (congrArg some hr)),
      portAt_grantReleased]

theorem portAt_grantDrawn (p : PortId) : portAt (grantDrawn s d q) p = portAt (grantLeft s d q) p := by
  cases p <;> rfl

theorem grantDrawn_frame : grantDrawn s d q = { s with
    grants := put s.grants d q, drawn := (grantDrawn s d q).drawn, portA := (grantDrawn s d q).portA
    portB := (grantDrawn s d q).portB, table := (grantDrawn s d q).table, rails := (grantDrawn s d q).rails
    counters := (grantDrawn s d q).counters } := by
  have hsame : ({ grantLeft s d q with drawn := (grantDrawn s d q).drawn } : State) = grantDrawn s d q := rfl
  rw [← hsame, grantLeft_frame, grantReleased_frame]

theorem releasedBy_grantDrawn : ReleasedBy (fun _ c => leavesWith s d c) s (grantDrawn s d q) := by
  obtain ⟨u, w, hvisits, hwork, htable, hrails, hcounters⟩ := releasedBy_grantReleased s d q
  have hleft : (grantLeft s d q).table = (grantReleased s d q).table ∧ (grantLeft s d q).rails = (grantReleased s d q).rails
      ∧ (grantLeft s d q).counters = (grantReleased s d q).counters := by
    rw [grantLeft_frame]
    exact ⟨rfl, rfl, rfl⟩
  obtain ⟨htables, hleftRails, hleftCounters⟩ := hleft
  exact ⟨u, w, hvisits, hwork, htables.trans htable, hleftRails.trans hrails, hleftCounters.trans hcounters⟩

theorem holdsClaim_grantDrawn_iff (c : Claim) : HoldsClaim (grantDrawn s d q) c ↔
    HoldsClaim s c ∧ ¬ (granting s d = some c.port ∧ c.division = d) := by
  rw [holdsClaim_iff_of_releasedBy (releasedBy_grantDrawn s d q)]
  have hhit : leavesWith s d c = false ↔ ¬ (granting s d = some c.port ∧ c.division = d) := by
    rw [← Bool.not_eq_true, leavesWith, Bool.and_eq_true, beq_iff_eq, beq_iff_eq]
  simp only [HoldsClaim, hhit, ← and_assoc, exists_and_right]

theorem getLsbD_leftPort (c : ConsolePort) {n : Nat} (hn : n < 256) :
    (leftPort s c d).recallSlot.driveOn.getLsbD n = (c.recallSlot.driveOn.getLsbD n
        && ((stopAt s n).kind == .unused || (stopAt s n).division != d))
      ∧ (leftPort s c d).recallSlot.driveOff.getLsbD n = (c.recallSlot.driveOff.getLsbD n
        && ((stopAt s n).kind == .unused || (stopAt s n).division != d)) := by
  have hstays : (!(stopsOf s d).getLsbD n) = ((stopAt s n).kind == .unused || (stopAt s n).division != d) := by
    rw [getLsbD_stopsOf s d hn, Bool.not_and, bne, Bool.not_not, bne]
  unfold leftPort
  simp only [BitVec.getLsbD_and, BitVec.getLsbD_not, hn, decide_true, Bool.true_and, hstays, and_self]

end Steps

/-! ### The drawn set after a grant change (R93 step 3) -/

section Drawn

variable {s : State} {d : Nat} {q : Option PortId} {n : Nat}

theorem stopsOf_grantLeft : stopsOf (grantLeft s d q) d = stopsOf s d := by
  rw [grantLeft_frame]
  exact stopsOf_grantReleased s d q

theorem drawn_grantLeft : (grantLeft s d q).drawn = s.drawn := by
  rw [grantLeft_frame, grantReleased_frame]

/-- The tabs that the new holder shows; no tab where there is no holder. -/
def holderTabs (s : State) : Option PortId → StopSet
  | none => 0
  | some p => tabsMade (portAt s p)

theorem drawn_grantDrawn (hd : d ≠ 5) : (grantDrawn s d q).drawn =
    (s.drawn &&& ~~~ stopsOf s d) ||| (holderTabs (grantLeft s d q) q &&& stopsOf s d) := by
  change drawnFromTabs (grantLeft s d q) d q = _
  unfold drawnFromTabs
  rw [if_neg hd, stopsOf_grantLeft, drawn_grantLeft]
  cases q <;> rfl

theorem getLsbD_drawn_of_division (hne : granting s d ≠ q) (hd : d ≠ 5) (hn : n < 256)
    (hkind : (stopAt s n).kind ≠ .unused) (hdivision : (stopAt s n).division = d) :
    (grantDrawn s d q).drawn.getLsbD n = true ↔ ∃ p, q = some p ∧ TabReadsMade (portAt s p) n := by
  have hin : (stopsOf s d).getLsbD n = true := by
    rw [getLsbD_stopsOf s d hn, Bool.and_eq_true, bne_iff_ne, beq_iff_eq]
    exact ⟨hkind, hdivision⟩
  rw [drawn_grantDrawn hd]
  simp only [BitVec.getLsbD_or, BitVec.getLsbD_and, BitVec.getLsbD_not, hn, hin, decide_true, Bool.not_true,
    Bool.and_false, Bool.false_or, Bool.and_true]
  cases q with
  | none => simp [holderTabs]
  | some p =>
    rw [holderTabs, portAt_grantLeft_other s d _ hne, tabsMade, getLsbD_bitsOf]
    simp only [hn, decide_true, Bool.true_and, tabMade_iff hn, Option.some.injEq, exists_eq_left']

theorem getLsbD_drawn_of_other (h : (stopAt s n).division ≠ d ∨ d = 5) :
    (grantDrawn s d q).drawn.getLsbD n = s.drawn.getLsbD n := by
  by_cases hd : d = 5
  · have hstand : (grantDrawn s d q).drawn = s.drawn := (if_pos hd).trans drawn_grantLeft
    rw [hstand]
  by_cases hn : n < 256
  · have hout : (stopsOf s d).getLsbD n = false := by
      rw [getLsbD_stopsOf s d hn, beq_false_of_ne (h.resolve_right hd), Bool.and_false]
    rw [drawn_grantDrawn hd]
    simp only [BitVec.getLsbD_or, BitVec.getLsbD_and, BitVec.getLsbD_not, hn, hout, decide_true, Bool.not_false,
      Bool.and_true, Bool.and_false, Bool.or_false]
  · rw [BitVec.getLsbD_of_ge _ _ (Nat.le_of_not_lt hn), BitVec.getLsbD_of_ge _ _ (Nat.le_of_not_lt hn)]

end Drawn

/-! ### What the change and the held keys leave (R93 steps 4 and 5) -/

section Played

variable (s : State) (d : Nat) (q : Option PortId)

theorem changeFrame_grantChanged : ChangeFrame (grantDrawn s d q) (grantChanged s d q) :=
  changeFrame_changeEffective false _ _

theorem tableFrame_playHolder (u : State) : TableFrame u (playHolder u d q) := by
  cases q with
  | none => exact .refl u
  | some p => exact tableFrame_playHeldKeys u p d

theorem changeFrame_grantChange : ChangeFrame (grantDrawn s d q) (grantChange s d q) :=
  (changeFrame_grantChanged s d q).trans (changeFrame_of_tableFrame (tableFrame_playHolder d q _))

theorem drawn_grantChange : (grantChange s d q).drawn = (grantDrawn s d q).drawn := by
  have h := changeFrame_grantChange s d q
  rw [ChangeFrame] at h
  rw [h]

/-- What stands through a grant change, beside the grant. -/
theorem kept_grantChange : (grantChange s d q).response = s.response ∧ (grantChange s d q).grants = put s.grants d q
    ∧ (grantChange s d q).stops = s.stops ∧ (grantChange s d q).ranks = s.ranks
    ∧ (grantChange s d q).combination = s.combination ∧ (grantChange s d q).mode = s.mode := by
  have h := changeFrame_grantChange s d q
  have hdrawn := grantDrawn_frame s d q
  rw [ChangeFrame] at h
  rw [h]
  dsimp only
  rw [hdrawn]
  exact ⟨rfl, rfl, rfl, rfl, rfl, rfl⟩

/-- No claim of the old holder in the division is made. -/
theorem not_holdsClaim_grantChange {p : PortId} (hold : granting s d = some p) (hne : granting s d ≠ q) {c : Claim}
    (hc : HoldsClaim (grantChange s d q) c) : ¬ (c.port = p ∧ c.division = d) := by
  rintro ⟨hport, hdivision⟩
  have hplayed : Machine.Plays (fun c => q = some c.port) (grantChanged s d q) (grantChange s d q) := by
    rw [grantChange_eq]
    cases q with
    | none => exact .refl _ _
    | some r => exact (plays_playHeldKeys _ r d).mono fun c hc => congrArg some hc.1.symm
  have hchanged : Machine.Plays (fun _ => False) (grantDrawn s d q) (grantChanged s d q) :=
    (plays_changeEffective false _ _).mono fun _ hc => Bool.noConfusion hc.1
  rcases hplayed.claims c hc with hc | hq
  · have hdrawn := (hchanged.claims c hc).resolve_right id
    exact ((holdsClaim_grantDrawn_iff s d q c).mp hdrawn).2 ⟨hport ▸ hold, hdivision⟩
  · exact hne (hold.trans (hport ▸ hq.symm))

/-- The new holder's held keys, as the statement lists them. -/
theorem grantChange_played {p : PortId} (hne : granting s d ≠ some p) {xs : List Nat} (hasc : xs.Pairwise (· < ·))
    (hmem : ∀ x, x ∈ xs ↔ x / 2 < Config.compass d ∧ KeyReadsMade (portAt s p) d (touchAt x) (x / 2)) :
    grantChange s d (some p) = xs.foldl (makeAt p d) (grantChanged s d (some p)) := by
  have hport : portAt (grantChanged s d (some p)) p = portAt s p := by
    rw [portAt_of_changeFrame (changeFrame_grantChanged s d _), portAt_grantDrawn, portAt_grantLeft_other s d _ hne]
  rw [grantChange_eq, playHolder, playHeldKeys_eq, hport, heldPlaces_eq hasc hmem]

end Played

/-! ### The write (R82) -/

theorem storeGrant_outside_run {s : State} (h : s.mode ≠ .run) (d : Nat) (q : Option PortId) :
    storeGrant s d q = { s with grants := put s.grants d q } := if_neg h

theorem storeGrant_same {s : State} (hmode : s.mode = .run) {d : Nat} {q : Option PortId} (h : granting s d = q) :
    storeGrant s d q = s := by
  rw [storeGrant, if_pos hmode, if_pos h]

theorem storeGrant_changes {s : State} (hmode : s.mode = .run) {d : Nat} {q : Option PortId} (h : granting s d ≠ q) :
    storeGrant s d q = grantChange s d q := by
  rw [storeGrant, if_pos hmode, if_neg h]

section Write

variable {params : List Byte} {s : State} (hfree : PortFree s) (hlength : params.length = 2)
include hfree hlength

theorem exec_tableWriteGrant_range (htaken : takenPlaying s.mode = true) (h : 5 < byteAt params 0 ∨ 2 < byteAt params 1) :
    exec (.tableWriteGrant params) s = .next (answered s .range []) := by
  refine exec_refuses rfl hfree htaken hlength ?_
  change writeGrantWork params (idleFill s) = _
  unfold writeGrantWork
  dsimp only
  split
  · rfl
  · next q hq =>
    refine if_pos (h.resolve_right fun hcode => ?_)
    rw [holderOfCode_eq_some_iff.mp hq] at hcode
    cases q with
    | none => exact absurd hcode (by decide)
    | some p => cases p <;> exact absurd hcode (by decide)

theorem exec_tableWriteGrant (htaken : takenPlaying s.mode = true) {q : Option PortId} (hd : byteAt params 0 ≤ 5)
    (hq : byteAt params 1 = holderCode q) :
    exec (.tableWriteGrant params) s = .next (respond (storeGrant (idleFill s) (byteAt params 0) q, okWith [])) := by
  rw [exec_worked rfl hfree htaken hlength]
  change Host.Outcome.next (respond (writeGrantWork params (idleFill s))) = _
  rw [writeGrantWork, holderOfCode_eq_some_iff.mpr hq]
  dsimp only
  rw [if_neg (Nat.not_lt.mpr hd)]

theorem exec_tableWriteGrant_config (hmode : s.mode = .config) {q : Option PortId} (hd : byteAt params 0 ≤ 5)
    (hq : byteAt params 1 = holderCode q) :
    exec (.tableWriteGrant params) s =
      .next { answered s .ok [] with grants := put s.grants (byteAt params 0) q } := by
  rw [exec_tableWriteGrant hfree hlength (by rw [hmode]; rfl) hd hq,
    storeGrant_outside_run (s := idleFill s) (by change s.mode ≠ _; rw [hmode]; exact Mode.noConfusion)]
  rfl

theorem exec_tableWriteGrant_same (hmode : s.mode = .run) {q : Option PortId} (hd : byteAt params 0 ≤ 5)
    (hq : byteAt params 1 = holderCode q) (h : granting s (byteAt params 0) = q) :
    exec (.tableWriteGrant params) s = .next (answered s .ok []) := by
  rw [exec_tableWriteGrant hfree hlength (by rw [hmode]; rfl) hd hq, storeGrant_same (s := idleFill s) hmode h]
  rfl

theorem exec_tableWriteGrant_changes (hmode : s.mode = .run) {q : Option PortId} (hd : byteAt params 0 ≤ 5)
    (hq : byteAt params 1 = holderCode q) (h : granting s (byteAt params 0) ≠ q) :
    exec (.tableWriteGrant params) s = .next (grantChange (answered s .ok []) (byteAt params 0) q) := by
  rw [exec_tableWriteGrant hfree hlength (by rw [hmode]; rfl) hd hq, storeGrant_changes (s := idleFill s) hmode h,
    idleFill_eq_withPort, grantChange_withPort, respond_withPort, answered_eq_withPort, grantChange_withPort]
  rfl

end Write

/-- Settles O12. -/
theorem grantWriteChangesHolder : Obligations.GrantWriteChangesHolder := by
  unfold Obligations.GrantWriteChangesHolder
  intro params s hlength hfree
  refine ⟨fun hmode => exec_tableWriteGrant_range hfree hlength (takenPlaying_of_ne hmode), fun q hd hq =>
    ⟨fun hmode => exec_tableWriteGrant_config hfree hlength hmode hd hq,
      fun hmode => exec_tableWriteGrant_same hfree hlength hmode hd hq, fun hmode hne => ?_⟩⟩
  have hport (p : PortId) : portAt (answered s .ok []) p = portAt s p := by cases p <;> rfl
  have hold (p : PortId) (h : granting s (byteAt params 0) = some p) :
      granting (answered s .ok []) (byteAt params 0) = some p := h
  obtain ⟨hresponse, hgrants, hstops, hranks, hcombination, hmodeKept⟩ :=
    kept_grantChange (answered s .ok []) (byteAt params 0) q
  refine ⟨grantDrawn (answered s .ok []) (byteAt params 0) q, grantChange (answered s .ok []) (byteAt params 0) q,
    exec_tableWriteGrant_changes hfree hlength hmode hd hq hne, grantDrawn_frame (answered s .ok []) _ q,
    releasedBy_grantDrawn (answered s .ok []) (byteAt params 0) q,
    holdsClaim_grantDrawn_iff (answered s .ok []) (byteAt params 0) q, fun p hp => ?_, fun p hp => ?_, ?_, ?_, hresponse,
    hgrants, fun p hp c => not_holdsClaim_grantChange (answered s .ok []) _ q (hold p hp) hne, drawn_grantChange _ _ q,
    fun hd5 n hn hkind hdivision => ?_, fun n h => ?_, hstops, hranks, hcombination, hmodeKept⟩
  · rw [portAt_grantDrawn, portAt_grantLeft_other (answered s .ok []) _ _ hp, hport]
  · have hleft := portAt_grantLeft_old (answered s .ok []) (byteAt params 0) q (hold p hp)
    rw [portAt_grantDrawn, hleft, hport]
    exact ⟨rfl, fun n hn => getLsbD_leftPort s _ _ hn⟩
  · intro hq
    rw [hq]
    rfl
  · intro p xs hp hasc hmem
    subst hp
    exact grantChange_played (answered s .ok []) _ hne hasc fun x => by rw [hport]; exact hmem x
  · rw [drawn_grantChange, getLsbD_drawn_of_division (s := answered s .ok []) hne hd5 hn hkind hdivision]
    simp only [hport]
  · rw [drawn_grantChange]
    exact getLsbD_drawn_of_other (s := answered s .ok []) h

end Sys2Proof.Proofs.Grants
end

section
/-! PROOFS. The positions that ranks and shades occupy (R3, R4, R115), and the crescendo and expression writes (R116,
R117, R125; O14, O15). -/

namespace Sys2Proof.Proofs.Occupancy

open Sys2Proof.Machine

/-! ### Runs of positions -/

/-- A position lies in some run of a list. -/
def Covers (xs : List (Nat × Nat)) (pos : Nat) : Prop :=
  ∃ x ∈ xs, x.1 ≤ pos ∧ pos < x.1 + x.2

theorem covers_append {xs ys : List (Nat × Nat)} {pos : Nat} :
    Covers (xs ++ ys) pos ↔ Covers xs pos ∨ Covers ys pos := by
  simp only [Covers, List.mem_append, or_and_right, exists_or]

theorem covers_nil {pos : Nat} : ¬ Covers [] pos := by
  rintro ⟨x, hx, -⟩
  cases hx

theorem covers_singleton {x : Nat × Nat} {pos : Nat} : Covers [x] pos ↔ x.1 ≤ pos ∧ pos < x.1 + x.2 := by
  simp only [Covers, List.mem_singleton, exists_eq_left]

theorem covers_flatMap {xs : List Nat} {f : Nat → List (Nat × Nat)} {pos : Nat} :
    Covers (xs.flatMap f) pos ↔ ∃ q ∈ xs, Covers (f q) pos := by
  constructor
  · rintro ⟨x, hx, h⟩
    obtain ⟨q, hq, hxq⟩ := List.mem_flatMap.mp hx
    exact ⟨q, hq, x, hxq, h⟩
  · rintro ⟨q, hq, x, hx, h⟩
    exact ⟨x, List.mem_flatMap.mpr ⟨q, hq, hx⟩, h⟩

theorem runsMeet_iff {a b : Nat × Nat} : runsMeet a b = true ↔
    ∃ pos, (a.1 ≤ pos ∧ pos < a.1 + a.2) ∧ b.1 ≤ pos ∧ pos < b.1 + b.2 := by
  simp only [runsMeet, Bool.and_eq_true, decide_eq_true_eq]
  constructor
  · rintro ⟨⟨⟨hab, hba⟩, ha⟩, hb⟩
    exact ⟨max a.1 b.1, by omega⟩
  · rintro ⟨pos, ⟨ha, ha'⟩, hb, hb'⟩
    omega

/-- Two lists of runs meet where some position lies in both. -/
theorem anyMeet_iff {xs ys : List (Nat × Nat)} : anyMeet xs ys = true ↔ ∃ pos, Covers xs pos ∧ Covers ys pos := by
  simp only [anyMeet, List.any_eq_true, runsMeet_iff]
  constructor
  · rintro ⟨x, hx, y, hy, pos, hxpos, hypos⟩
    exact ⟨pos, ⟨x, hx, hxpos⟩, y, hy, hypos⟩
  · rintro ⟨pos, ⟨x, hx, hxpos⟩, y, hy, hypos⟩
    exact ⟨x, hx, y, hy, pos, hxpos, hypos⟩

/-! ### Ranks and shades -/

theorem covers_pipeRun {e : RankEntry} {pos : Nat} : Covers (pipeRun e) pos ↔
    e.kind ≠ .unused ∧ e.slot * 16 + e.bit ≤ pos ∧ pos < e.slot * 16 + e.bit + e.count := by
  unfold pipeRun
  split
  next h => exact iff_of_false covers_nil fun hc => hc.1 h
  next h =>
    rw [covers_singleton]
    exact (and_iff_right h).symm

theorem covers_damperRun {e : RankEntry} {pos : Nat} : Covers (damperRun e) pos ↔
    e.kind ≠ .unused ∧ ∃ slot bit, e.damper = some (slot, bit) ∧ pos = slot * 16 + bit := by
  unfold damperRun
  split
  next h => exact iff_of_false covers_nil fun hc => hc.1 h
  next h _ => exact iff_of_false covers_nil fun ⟨_, slot, bit, hc, _⟩ => by rw [h] at hc; cases hc
  next slot bit h hkind =>
    rw [covers_singleton]
    constructor
    · rintro ⟨hle, hlt⟩
      exact ⟨hkind, slot, bit, h, by unfold position at hle hlt; omega⟩
    · rintro ⟨-, x, y, hxy, rfl⟩
      rw [h] at hxy
      obtain ⟨rfl, rfl⟩ := Prod.mk.inj (Option.some.inj hxy)
      exact ⟨Nat.le_refl _, Nat.lt_succ_self _⟩

theorem covers_rankRuns {e : RankEntry} {pos : Nat} : Covers (pipeRun e ++ damperRun e) pos ↔ Occupies e pos := by
  rw [covers_append, covers_pipeRun, covers_damperRun, ← and_or_left]
  rfl

theorem covers_shadeRun {e : ExprEntry} {pos : Nat} : Covers (shadeRun e) pos ↔ Shades e pos := by
  unfold shadeRun
  split
  next h =>
    rw [covers_singleton]
    exact (and_iff_right h).symm
  next h => exact iff_of_false covers_nil fun hc => h hc.1

theorem covers_otherRankRuns {s : State} {l r pos : Nat} : Covers (otherRankRuns s l r) pos ↔
    ∃ q, q < 64 ∧ q ≠ r ∧ (rankAt s q).link = l ∧ Occupies (rankAt s q) pos := by
  unfold otherRankRuns
  rw [covers_flatMap]
  simp only [covers_rankRuns, List.mem_filter, List.mem_range, Bool.and_eq_true, bne_iff_ne, beq_iff_eq]
  constructor
  · rintro ⟨q, ⟨hq, ⟨hne, -⟩, hlink⟩, h⟩
    exact ⟨q, hq, hne, hlink, h⟩
  · rintro ⟨q, hq, hne, hlink, h⟩
    exact ⟨q, ⟨hq, ⟨hne, h.1⟩, hlink⟩, h⟩

theorem covers_shadeRuns {s : State} {l pos : Nat} {f : Nat → Bool} : Covers (shadeRuns s l f) pos ↔
    ∃ x, x < 8 ∧ f x = true ∧ (exprAt s x).link = l ∧ Shades (exprAt s x) pos := by
  unfold shadeRuns
  rw [covers_flatMap]
  simp only [covers_shadeRun, List.mem_filter, List.mem_range, Bool.and_eq_true, beq_iff_eq, and_assoc]

end Sys2Proof.Proofs.Occupancy

namespace Sys2Proof.Proofs.ExpressionWrites

open Sys2Proof.Machine Sys2Proof.Proofs.ServicePort Sys2Proof.Proofs.Reads Sys2Proof.Proofs.Entries
open Sys2Proof.Proofs.Registration Sys2Proof.Proofs.Changes Sys2Proof.Proofs.KeysAndTabs Sys2Proof.Proofs.Occupancy

/-- What stands through a change of the effective set. -/
theorem kept_of_changeFrame {s t : State} (h : ChangeFrame s t) : t.response = s.response ∧ t.crescendo = s.crescendo
    ∧ t.grants = s.grants ∧ t.runs = s.runs ∧ t.mode = s.mode ∧ t.expression = s.expression ∧ t.stops = s.stops := by
  rw [ChangeFrame] at h
  rw [h]
  exact ⟨rfl, rfl, rfl, rfl, rfl, rfl, rfl⟩

/-! ### The crescendo write (R125; O14) -/

section CrescendoWrite

variable {params : List Byte} {s : State} (hfree : PortFree s) (hlength : params.length = 33)
include hfree hlength

theorem exec_tableWriteCrescendo_range (htaken : takenPlaying s.mode = true)
    (h : byteAt params 0 = 0 ∨ 15 < byteAt params 0) :
    exec (.tableWriteCrescendo params) s = .next (answered s .range []) :=
  exec_refuses rfl hfree htaken hlength (if_pos h)

/-- The state with the written record stored. -/
def recordStored (params : List Byte) (s : State) : State :=
  setCrescendo (answered s .ok []) (byteAt params 0) (stopSetAt params 1 &&& storable s)

theorem exec_tableWriteCrescendo (htaken : takenPlaying s.mode = true) (h : 1 ≤ byteAt params 0)
    (h' : byteAt params 0 ≤ 15) : exec (.tableWriteCrescendo params) s =
      .next (respond (storeCrescendo (idleFill s) (byteAt params 0) (stopSetAt params 1 &&& storable s), okWith [])) := by
  rw [exec_worked rfl hfree htaken hlength]
  change Host.Outcome.next (respond (writeCrescendoWork params (idleFill s))) = _
  rw [writeCrescendoWork]
  exact congrArg (fun x => Host.Outcome.next (respond x)) (if_neg (by omega))

theorem exec_tableWriteCrescendo_other (htaken : takenPlaying s.mode = true) (h : 1 ≤ byteAt params 0)
    (h' : byteAt params 0 ≤ 15) (hother : ¬ (s.mode = .run ∧ crescendoStage s = byteAt params 0)) :
    exec (.tableWriteCrescendo params) s = .next (recordStored params s) := by
  rw [exec_tableWriteCrescendo hfree hlength htaken h h', storeCrescendo]
  exact congrArg (fun x => Host.Outcome.next (respond (x, okWith []))) (if_neg hother)

theorem exec_tableWriteCrescendo_current (hrun : s.mode = .run) (h : 1 ≤ byteAt params 0)
    (h' : byteAt params 0 ≤ 15) (hstage : crescendoStage s = byteAt params 0) :
    exec (.tableWriteCrescendo params) s =
      .next (changeEffective true (effectiveSet s) (recordStored params s)) := by
  have hchange : storeCrescendo (idleFill s) (byteAt params 0) (stopSetAt params 1 &&& storable s) =
      changeEffective true (effectiveSet (idleFill s))
        (setCrescendo (idleFill s) (byteAt params 0) (stopSetAt params 1 &&& storable s)) := if_pos ⟨hrun, hstage⟩
  have hidle : setCrescendo (idleFill s) (byteAt params 0) (stopSetAt params 1 &&& storable s) =
      withPort (recordStored params s) [] s.response := rfl
  rw [exec_tableWriteCrescendo hfree hlength (by rw [hrun]; rfl) h h', hchange, hidle, changeEffective_withPort,
    respond_withPort, idleFill_eq_withPort, effectiveSet_withPort, ← changeEffective_withPort]
  rfl

end CrescendoWrite

/-- Settles O14. -/
theorem crescendoWriteStoresFilteredSet : Obligations.CrescendoWriteStoresFilteredSet := by
  unfold Obligations.CrescendoWriteStoresFilteredSet
  intro params s hlength hfree
  refine ⟨fun hmode => exec_tableWriteCrescendo_range hfree hlength (takenPlaying_of_ne hmode), fun n hn h1 h15 => ?_⟩
  subst hn
  refine ⟨fun hconfig => ?_, fun hrun hstage => ?_, fun hrun hstage => ?_⟩
  · refine exec_tableWriteCrescendo_other hfree hlength (by rw [hconfig]; rfl) h1 h15 fun h => ?_
    rw [hconfig] at h
    exact Mode.noConfusion h.1
  · exact exec_tableWriteCrescendo_other hfree hlength (by rw [hrun]; rfl) h1 h15 fun h => hstage h.2
  · have hexec := exec_tableWriteCrescendo_current hfree hlength hrun h1 h15 hstage
    obtain ⟨hresponse, hcrescendo, hgrants, hruns, hmode, -, -⟩ :=
      kept_of_changeFrame (changeFrame_changeEffective true (effectiveSet s) (recordStored params s))
    exact ⟨hexec, _, hexec, hresponse, hcrescendo, effectiveSet_changeEffective true _ _, drawn_changeEffective true _ _,
      hgrants, hruns, hmode⟩

/-! ### The checks of an expression entry (R116) -/

section ExprFault

variable {s : State} {n : Nat} {e : ExprEntry}

/-- An enabled entry's source slot is not mapped EXPRESSION. -/
def Unmapped (s : State) (e : ExprEntry) : Prop :=
  e.enabled = true ∧ ∀ p, e.port = some p → (slotAt (portAt s p) e.slot).kind ≠ .expression

/-- A shade range runs beyond the last position. -/
def BeyondLink (e : ExprEntry) : Prop :=
  e.target = .shade ∧ 768 < e.outSlot * 16 + e.outBit + e.stages

/-- A shade position of entry `n` is occupied already. -/
def ShadeOverlaps (s : State) (n : Nat) (e : ExprEntry) : Prop :=
  ∃ pos, Shades e pos
    ∧ ((∃ q, q < 64 ∧ (rankAt s q).link = e.link ∧ Occupies (rankAt s q) pos)
      ∨ ∃ x, x < 8 ∧ x ≠ n ∧ (exprAt s x).link = e.link ∧ Shades (exprAt s x) pos)

/-- Another enabled entry is CRESCENDO. -/
def SecondCrescendo (s : State) (n : Nat) (e : ExprEntry) : Prop :=
  e.enabled = true ∧ e.target = .crescendo
    ∧ ∃ x, x < 8 ∧ x ≠ n ∧ (exprAt s x).enabled = true ∧ (exprAt s x).target = .crescendo

theorem unmapped_iff : e.enabled = true ∧ sourceMapped s e = false ↔ Unmapped s e := by
  refine and_congr_right fun _ => ?_
  unfold sourceMapped
  cases e.port with
  | none => simp
  | some p => simp

theorem shadeOverlaps_iff :
    anyMeet (shadeRun e) (otherRankRuns s e.link 64 ++ shadeRuns s e.link fun q => q != n) = true ↔
      ShadeOverlaps s n e := by
  rw [anyMeet_iff]
  refine exists_congr fun pos => ?_
  rw [covers_shadeRun, covers_append, covers_otherRankRuns, covers_shadeRuns]
  refine and_congr_right fun _ => or_congr (exists_congr fun q => and_congr_right fun hq => ?_)
    (exists_congr fun x => and_congr_right fun _ => and_congr bne_iff_ne .rfl)
  exact and_iff_right (Nat.ne_of_lt hq)

theorem isCrescendoEntry_iff {x : ExprEntry} :
    isCrescendoEntry x = true ↔ x.enabled = true ∧ x.target = .crescendo := by
  rw [isCrescendoEntry, Bool.and_eq_true, beq_iff_eq]

theorem secondCrescendo_iff :
    isCrescendoEntry e = true ∧ ((List.range 8).any fun q => q != n && isCrescendoEntry (exprAt s q)) = true ↔
      SecondCrescendo s n e := by
  rw [isCrescendoEntry_iff, and_assoc]
  refine and_congr_right fun _ => and_congr_right fun _ => ?_
  simp only [List.any_eq_true, List.mem_range, Bool.and_eq_true, bne_iff_ne, isCrescendoEntry_iff]

theorem exprFault_eq (s : State) (n : Nat) (e : ExprEntry) [Decidable (BeyondLink e)] [Decidable (Unmapped s e)]
    [Decidable (ShadeOverlaps s n e)] [Decidable (SecondCrescendo s n e)] : exprFault s n e =
      if BeyondLink e then some .range
      else if Unmapped s e then some .range
      else if ShadeOverlaps s n e then some .overlap
      else if SecondCrescendo s n e then some .inUse
      else none :=
  if_congr Iff.rfl rfl (if_congr unmapped_iff rfl (if_congr shadeOverlaps_iff rfl (if_congr secondCrescendo_iff rfl rfl)))

open Classical in
theorem exprFault_range (h : BeyondLink e ∨ Unmapped s e) : exprFault s n e = some .range := by
  rw [exprFault_eq]
  by_cases hbeyond : BeyondLink e
  · rw [if_pos hbeyond]
  · rw [if_neg hbeyond, if_pos (h.resolve_left hbeyond)]

open Classical in
theorem exprFault_overlap (hbeyond : ¬ BeyondLink e) (hmapped : ¬ Unmapped s e) (h : ShadeOverlaps s n e) :
    exprFault s n e = some .overlap := by
  rw [exprFault_eq, if_neg hbeyond, if_neg hmapped, if_pos h]

open Classical in
theorem exprFault_inUse (hbeyond : ¬ BeyondLink e) (hmapped : ¬ Unmapped s e) (hclear : ¬ ShadeOverlaps s n e)
    (h : SecondCrescendo s n e) : exprFault s n e = some .inUse := by
  rw [exprFault_eq, if_neg hbeyond, if_neg hmapped, if_neg hclear, if_pos h]

open Classical in
theorem exprFault_none (hbeyond : ¬ BeyondLink e) (hmapped : ¬ Unmapped s e) (hclear : ¬ ShadeOverlaps s n e)
    (h : ¬ SecondCrescendo s n e) : exprFault s n e = none := by
  rw [exprFault_eq, if_neg hbeyond, if_neg hmapped, if_neg hclear, if_neg h]

end ExprFault

/-! ### An entry stored (R117) -/

section Store

variable {s : State} {n : Nat}

theorem storeExpr_idle (h : ¬ (s.mode = .run ∧ (runAt s n).stage ≠ 0)) (e : ExprEntry) :
    storeExpr s n e = { s with expression := put s.expression n e, runs := put s.runs n ExprRun.clear } := by
  rw [storeExpr, driveToZero, if_neg h]
  rfl

theorem setRun_storedOver (s : State) (n : Nat) (r : ExprRun) (e : ExprEntry) :
    setRun { setRun s n r with expression := put s.expression n e } n ExprRun.clear =
      { s with expression := put s.expression n e, runs := put s.runs n ExprRun.clear } := by
  simp only [setRun, put, Vector.setIfInBounds_setIfInBounds]

theorem storeExpr_plain (h : isCrescendoEntry (exprAt s n) = false) (e : ExprEntry) :
    storeExpr s n e = { s with expression := put s.expression n e, runs := put s.runs n ExprRun.clear } := by
  by_cases hstage : s.mode = .run ∧ (runAt s n).stage ≠ 0
  · rw [storeExpr, driveToZero, if_pos hstage, setStage, h, if_neg Bool.false_ne_true]
    exact setRun_storedOver s n _ e
  · exact storeExpr_idle hstage e

/-- The change of the effective set as the crescendo entry's stage goes to 0 (R117 step 1, R124). -/
def crescendoClosed (s : State) (n : Nat) : State :=
  changeEffective true (effectiveSet s) (setRun s n { runAt s n with stage := 0 })

theorem changeFrame_crescendoClosed (s : State) (n : Nat) :
    ChangeFrame (setRun s n { runAt s n with stage := 0 }) (crescendoClosed s n) :=
  changeFrame_changeEffective true _ _

theorem storeExpr_crescendo (hrun : s.mode = .run) (hstage : (runAt s n).stage ≠ 0)
    (h : isCrescendoEntry (exprAt s n) = true) (e : ExprEntry) :
    storeExpr s n e =
      { crescendoClosed s n with expression := put s.expression n e, runs := put s.runs n ExprRun.clear } := by
  obtain ⟨-, -, -, hruns, -, hexpression, -⟩ := kept_of_changeFrame (changeFrame_crescendoClosed s n)
  have hdriven : driveToZero s n = crescendoClosed s n := by
    rw [driveToZero, if_pos ⟨hrun, hstage⟩, setStage, h, if_pos rfl]
    rfl
  rw [storeExpr, hdriven, hexpression, setRun]
  dsimp only
  simp only [hruns, setRun_runs, setRun_expression, put, Vector.setIfInBounds_setIfInBounds]

/-- What stands through an expression write, beside the entry and its run state. -/
theorem kept_storeExpr (s : State) (n : Nat) (e : ExprEntry) :
    (storeExpr s n e).response = s.response ∧ (storeExpr s n e).expression = put s.expression n e
      ∧ (storeExpr s n e).runs = put s.runs n ExprRun.clear ∧ (storeExpr s n e).drawn = s.drawn
      ∧ (storeExpr s n e).grants = s.grants ∧ (storeExpr s n e).crescendo = s.crescendo
      ∧ (storeExpr s n e).mode = s.mode := by
  by_cases hcrescendo : isCrescendoEntry (exprAt s n) = true
  · by_cases hstage : s.mode = .run ∧ (runAt s n).stage ≠ 0
    · rw [storeExpr_crescendo hstage.1 hstage.2 hcrescendo]
      have hframe := changeFrame_crescendoClosed s n
      rw [ChangeFrame] at hframe
      rw [hframe]
      exact ⟨rfl, rfl, rfl, rfl, rfl, rfl, rfl⟩
    · rw [storeExpr_idle hstage]
      exact ⟨rfl, rfl, rfl, rfl, rfl, rfl, rfl⟩
  · rw [storeExpr_plain (Bool.of_not_eq_true hcrescendo)]
    exact ⟨rfl, rfl, rfl, rfl, rfl, rfl, rfl⟩

theorem storeExpr_withPort (s : State) (d : List Byte) (r : Option Response) (n : Nat) (e : ExprEntry) :
    storeExpr (withPort s d r) n e = withPort (storeExpr s n e) d r := by
  have hdriven : driveToZero (withPort s d r) n = withPort (driveToZero s n) d r := by
    unfold driveToZero
    rw [setStage_withPort]
    split
    next h => exact congrArg (fun u => withPort u d r) (if_pos h).symm
    next h => exact congrArg (fun u => withPort u d r) (if_neg h).symm
  rw [storeExpr, hdriven]
  rfl

/-- Where the crescendo entry is rewritten no stop is effective for the crescendo. -/
theorem effective_storeExpr_crescendo (hrun : s.mode = .run) (hstage : (runAt s n).stage ≠ 0)
    (h : isCrescendoEntry (exprAt s n) = true) {e : ExprEntry} (hn : n < 8) (hfault : exprFault s n e = none)
    (hone : OneCrescendoEntry s) (m : Nat) : effective (storeExpr s n e) m = true ↔
      s.drawn.getLsbD m = true ∨ ((stopAt s m).kind = .fixed ∧ (stopAt s m).division = 5) := by
  have hone' : OneCrescendoEntry (storeExpr s n e) := by
    have hstored := oneCrescendoEntry_entryStored hn (noSecondCrescendo_of_exprFault hfault) hone
    exact oneCrescendoEntry_congr (kept_storeExpr s n e).2.1 hstored
  have hstop : stopAt (storeExpr s n e) m = stopAt s m := by
    rw [storeExpr_crescendo hrun hstage h]
    obtain ⟨-, -, -, -, -, -, hstops⟩ := kept_of_changeFrame (changeFrame_crescendoClosed s n)
    exact congrArg (fun v => look v m _) hstops
  obtain ⟨-, hexpression, hruns, hdrawn, -, -, -⟩ := kept_storeExpr s n e
  rw [effective_iff hone', hdrawn, hstop]
  refine or_congr_right (or_iff_left ?_)
  rintro ⟨x, p, hx, henabled, htarget, -, -, hat, -⟩
  by_cases hxn : x = n
  · have hclear : runAt (storeExpr s n e) x = ExprRun.clear := by
      rw [runAt, hruns, hxn, look_put_same _ _ _ hn]
    rw [hclear] at hat
    exact absurd hat (by decide)
  · have hsame : exprAt (storeExpr s n e) x = exprAt s x := by
      rw [exprAt, hexpression, look_put_ne _ _ _ (Ne.symm hxn), exprAt]
    rw [hsame] at henabled htarget
    exact hxn (hone x n (isCrescendoEntry_iff.mpr ⟨henabled, htarget⟩) h)

end Store

/-! ### The expression write (R116, R117; O15) -/

section ExpressionWrite

variable {params : List Byte} {s : State} (hfree : PortFree s) (htaken : takenPlaying s.mode = true)
  (hlength : params.length = 18)
include hfree htaken hlength

theorem exec_tableWriteExpression_range (h : 7 < byteAt params 0 ∨ ¬ ExprBytesFit (byteAt params)) :
    exec (.tableWriteExpression params) s = .next (answered s .range []) := by
  refine exec_refuses rfl hfree htaken hlength ?_
  change writeExpressionWork params (idleFill s) = _
  unfold writeExpressionWork
  dsimp only
  split
  · rfl
  next hn =>
    split
    · rfl
    next e he => exact absurd (readExprEntry_params_iff.1 he).1 (h.resolve_left hn)

variable (hn : byteAt params 0 ≤ 7) (hfit : ExprBytesFit (byteAt params))
include hn hfit

theorem exec_tableWriteExpression_refused {st : Status}
    (h : exprFault s (byteAt params 0) (exprWritten (byteAt params)) = some st) :
    exec (.tableWriteExpression params) s = .next (answered s st []) := by
  refine exec_refuses rfl hfree htaken hlength ?_
  change writeExpressionWork params (idleFill s) = _
  have hidle : exprFault (idleFill s) (byteAt params 0) (exprWritten (byteAt params)) = some st := h
  rw [writeExpressionWork, readExprEntry_params_iff.2 ⟨hfit, rfl⟩]
  dsimp only
  rw [if_neg (Nat.not_lt.2 hn), hidle]

theorem exec_tableWriteExpression_stored
    (h : exprFault s (byteAt params 0) (exprWritten (byteAt params)) = none) :
    exec (.tableWriteExpression params) s =
      .next (storeExpr (answered s .ok []) (byteAt params 0) (exprWritten (byteAt params))) := by
  rw [exec_worked rfl hfree htaken hlength]
  change Host.Outcome.next (respond (writeExpressionWork params (idleFill s))) = _
  have hidle : exprFault (idleFill s) (byteAt params 0) (exprWritten (byteAt params)) = none := h
  rw [writeExpressionWork, readExprEntry_params_iff.2 ⟨hfit, rfl⟩]
  dsimp only
  rw [if_neg (Nat.not_lt.2 hn), hidle]
  dsimp only
  rw [idleFill_eq_withPort, storeExpr_withPort, respond_withPort, answered_eq_withPort, storeExpr_withPort]
  rfl

end ExpressionWrite

/-- Settles O15. -/
theorem expressionWriteClearsRunState : Obligations.ExpressionWriteClearsRunState := by
  unfold Obligations.ExpressionWriteClearsRunState
  intro params s hlength hfree hmode
  have htaken := takenPlaying_of_ne hmode
  refine ⟨exec_tableWriteExpression_range hfree htaken hlength, fun hn hfit => ⟨fun h => ?_, fun hbeyond hmapped h => ?_,
    fun hbeyond hmapped hclear h => ?_, fun hbeyond hmapped hclear h => ?_⟩⟩
  · exact exec_tableWriteExpression_refused hfree htaken hlength hn hfit (exprFault_range h)
  · exact exec_tableWriteExpression_refused hfree htaken hlength hn hfit (exprFault_overlap hbeyond hmapped h)
  · exact exec_tableWriteExpression_refused hfree htaken hlength hn hfit (exprFault_inUse hbeyond hmapped hclear h)
  have hfault : exprFault s (byteAt params 0) (exprWritten (byteAt params)) = none :=
    exprFault_none hbeyond hmapped hclear h
  rw [exec_tableWriteExpression_stored hfree htaken hlength hn hfit hfault]
  refine ⟨fun hconfig => ?_, fun hrun => ?_⟩
  · refine congrArg Host.Outcome.next (storeExpr_idle (s := answered s .ok []) (fun hc => ?_) _)
    exact Mode.noConfusion (hconfig.symm.trans hc.1)
  obtain ⟨hresponse, hexpression, hruns, hdrawn, hgrants, hcrescendo, hmodeKept⟩ :=
    kept_storeExpr (answered s .ok []) (byteAt params 0) (exprWritten (byteAt params))
  refine ⟨_, rfl, hresponse, hexpression, hruns, hdrawn, hgrants, hcrescendo, hmodeKept, fun henabled htarget hstage => ?_,
    fun hother => ?_⟩
  · have hentry : isCrescendoEntry (exprAt (answered s .ok []) (byteAt params 0)) = true :=
      isCrescendoEntry_iff.mpr ⟨henabled, htarget⟩
    exact ⟨storeExpr_crescendo (s := answered s .ok []) hrun hstage hentry _, fun hone m _ =>
      effective_storeExpr_crescendo (s := answered s .ok []) hrun hstage hentry (Nat.lt_succ_of_le hn) hfault hone m⟩
  · by_cases hentry : isCrescendoEntry (exprAt (answered s .ok []) (byteAt params 0)) = true
    · obtain ⟨henabled, htarget⟩ := isCrescendoEntry_iff.mp hentry
      have hzero : (runAt s (byteAt params 0)).stage = 0 := by
        rcases hother with hoff | hshade | hzero
        · exact absurd (henabled.symm.trans hoff) Bool.true_eq_false.mp
        · exact absurd htarget hshade
        · exact hzero
      exact storeExpr_idle (s := answered s .ok []) (fun hc => hc.2 hzero) _
    · exact storeExpr_plain (s := answered s .ok []) (Bool.of_not_eq_true hentry) _

end Sys2Proof.Proofs.ExpressionWrites
end

section
/-! PROOFS. The rank write (R2 to R6; O9). -/

namespace Sys2Proof.Proofs.RankWrites

open Sys2Proof.Machine Sys2Proof.Proofs.ServicePort Sys2Proof.Proofs.Reads Sys2Proof.Proofs.Entries
open Sys2Proof.Proofs.Registration Sys2Proof.Proofs.KeysAndTabs Sys2Proof.Proofs.Occupancy

/-! ### The checks of a rank entry (R4, R5) -/

section RankFault

variable {s : State} {r : Nat} {e : RankEntry}

/-- Pipes run beyond the last position. -/
def PipesBeyond (e : RankEntry) : Prop :=
  e.kind ≠ .unused ∧ 768 < e.slot * 16 + e.bit + e.count

/-- A position of rank `r` is occupied already, by another rank, by a shade or by its own pipes. -/
def RankOverlaps (s : State) (r : Nat) (e : RankEntry) : Prop :=
  (∃ pos, Occupies e pos
      ∧ ((∃ q, q < 64 ∧ q ≠ r ∧ (rankAt s q).link = e.link ∧ Occupies (rankAt s q) pos)
        ∨ ∃ x, x < 8 ∧ (exprAt s x).link = e.link ∧ Shades (exprAt s x) pos))
    ∨ ∃ slot bit, e.damper = some (slot, bit) ∧ e.slot * 16 + e.bit ≤ slot * 16 + bit
      ∧ slot * 16 + bit < e.slot * 16 + e.bit + e.count

/-- Checks 4 to 6: the hold, the period, and in RUN the rail's capacity. -/
def Misfits (s : State) (e : RankEntry) : Prop :=
  ((e.kind = .pipe ∨ e.kind = .held) ∧ e.pull < e.hold)
    ∨ (e.kind = .reiterate ∧ e.period < e.strikeTime + e.minOff)
    ∨ (s.mode = .run ∧ e.kind ≠ .unused ∧ e.kind ≠ .tremulant ∧ (railAt s e.rail).entry.capacity < e.pull)

/-- A rank is in use in RUN, before the write or under it. -/
def RankInUse (s : State) (r : Nat) (e : RankEntry) : Prop :=
  s.mode = .run
    ∧ ((∃ i x, recordAt s i = some x ∧ x.rank = r)
      ∨ (((rankAt s r).kind = .tremulant ∨ e.kind = .tremulant)
        ∧ ∃ n, n < 256 ∧ (stopAt s n).kind = .tremulant ∧ (stopAt s n).rank = r ∧ effective s n = true))

theorem usesHold_iff {k : RankKind} : usesHold k = true ↔ k = .pipe ∨ k = .held := by
  rw [usesHold, Bool.or_eq_true, beq_iff_eq, beq_iff_eq]

theorem usesNotes_iff {k : RankKind} : usesNotes k = true ↔ k ≠ .unused ∧ k ≠ .tremulant := by
  cases k <;> decide

/-- An entry that is written with a damper is of a kind that strikes. -/
theorem kind_of_damper {b : Nat → Nat} {x : Nat × Nat} (h : (rankWritten b).damper = some x) :
    (rankWritten b).kind ≠ .unused := by
  unfold rankWritten at h ⊢
  dsimp only at h ⊢
  have hstrikes : b 1 = 2 ∨ b 1 = 3 := by
    by_contra hn
    simp [hn] at h
  rcases hstrikes with h2 | h3
  · rw [h2]
    decide
  · rw [h3]
    decide

theorem rankOverlaps_iff (hdamper : ∀ x, e.damper = some x → e.kind ≠ .unused) :
    rankOverlaps s r e = true ↔ RankOverlaps s r e := by
  rw [rankOverlaps, Bool.or_eq_true, anyMeet_iff, anyMeet_iff]
  refine or_congr (exists_congr fun pos => ?_) ?_
  · rw [covers_rankRuns, covers_append, covers_otherRankRuns, covers_shadeRuns]
    simp only [true_and]
  · simp only [covers_damperRun, covers_pipeRun]
    constructor
    · rintro ⟨pos, ⟨-, slot, bit, hd, rfl⟩, -, hle, hlt⟩
      exact ⟨slot, bit, hd, hle, hlt⟩
    · rintro ⟨slot, bit, hd, hle, hlt⟩
      have hkind := hdamper _ hd
      exact ⟨_, ⟨hkind, slot, bit, hd, rfl⟩, hkind, hle, hlt⟩

theorem rankInUse_iff : s.mode = .run ∧ rankInUse s r e = true ↔ RankInUse s r e := by
  refine and_congr_right fun _ => ?_
  rw [rankInUse, Bool.or_eq_true, Bool.and_eq_true, Bool.or_eq_true, beq_iff_eq, beq_iff_eq, tremulantNamed_iff,
    List.any_eq_true]
  refine or_congr_left ⟨?_, ?_⟩
  · rintro ⟨y, hy, hrank⟩
    cases y with
    | none => cases hrank
    | some x =>
      obtain ⟨i, hi⟩ := List.mem_iff_getElem?.mp hy
      exact ⟨i, x, (toList_getElem?_eq s i x).mp hi, beq_iff_eq.mp hrank⟩
  · rintro ⟨i, x, hx, hrank⟩
    exact ⟨some x, List.mem_iff_getElem?.mpr ⟨i, (toList_getElem?_eq s i x).mpr hx⟩, beq_iff_eq.mpr hrank⟩

/-- The checks in their order. -/
theorem rankFault_eq (hdamper : ∀ x, e.damper = some x → e.kind ≠ .unused) [Decidable (PipesBeyond e)]
    [Decidable (RankOverlaps s r e)] [Decidable (Misfits s e)] [Decidable (RankInUse s r e)] : rankFault s r e =
      if PipesBeyond e then some .range
      else if RankOverlaps s r e then some .overlap
      else if Misfits s e then some .range
      else if RankInUse s r e then some .inUse
      else none := by
  refine if_congr Iff.rfl rfl (if_congr (rankOverlaps_iff hdamper) rfl ?_)
  have hhold : usesHold e.kind = true ∧ e.pull < e.hold ↔ (e.kind = .pipe ∨ e.kind = .held) ∧ e.pull < e.hold :=
    and_congr_left fun _ => usesHold_iff
  have hpull : s.mode = .run ∧ usesNotes e.kind = true ∧ (railAt s e.rail).entry.capacity < e.pull ↔
      s.mode = .run ∧ e.kind ≠ .unused ∧ e.kind ≠ .tremulant ∧ (railAt s e.rail).entry.capacity < e.pull := by
    rw [usesNotes_iff, and_assoc]
  by_cases h : Misfits s e
  · rw [if_pos h]
    by_cases h4 : (e.kind = .pipe ∨ e.kind = .held) ∧ e.pull < e.hold
    · exact if_pos (hhold.mpr h4)
    rw [if_neg fun hc => h4 (hhold.mp hc)]
    by_cases h5 : e.kind = .reiterate ∧ e.period < e.strikeTime + e.minOff
    · exact if_pos h5
    rw [if_neg h5]
    exact if_pos (hpull.mpr ((h.resolve_left h4).resolve_left h5))
  · rw [if_neg h, if_neg fun hc => h (.inl (hhold.mp hc)), if_neg fun hc => h (.inr (.inl hc)),
      if_neg fun hc => h (.inr (.inr (hpull.mp hc)))]
    exact if_congr rankInUse_iff rfl rfl

variable (hdamper : ∀ x, e.damper = some x → e.kind ≠ .unused)
include hdamper

open Classical in
theorem rankFault_beyond (h : PipesBeyond e) : rankFault s r e = some .range := by
  rw [rankFault_eq hdamper, if_pos h]

open Classical in
theorem rankFault_overlap (hbeyond : ¬ PipesBeyond e) (h : RankOverlaps s r e) : rankFault s r e = some .overlap := by
  rw [rankFault_eq hdamper, if_neg hbeyond, if_pos h]

open Classical in
theorem rankFault_misfit (hbeyond : ¬ PipesBeyond e) (hclear : ¬ RankOverlaps s r e) (h : Misfits s e) :
    rankFault s r e = some .range := by
  rw [rankFault_eq hdamper, if_neg hbeyond, if_neg hclear, if_pos h]

open Classical in
theorem rankFault_inUse (hbeyond : ¬ PipesBeyond e) (hclear : ¬ RankOverlaps s r e) (hfits : ¬ Misfits s e)
    (h : RankInUse s r e) : rankFault s r e = some .inUse := by
  rw [rankFault_eq hdamper, if_neg hbeyond, if_neg hclear, if_neg hfits, if_pos h]

open Classical in
theorem rankFault_none (hbeyond : ¬ PipesBeyond e) (hclear : ¬ RankOverlaps s r e) (hfits : ¬ Misfits s e)
    (h : ¬ RankInUse s r e) : rankFault s r e = none := by
  rw [rankFault_eq hdamper, if_neg hbeyond, if_neg hclear, if_neg hfits, if_neg h]

end RankFault

/-! ### A rank stored (R5, R97) -/

section Store

variable (s : State) (r : Nat) (e : RankEntry)

theorem storeRank_frame :
    storeRank s r e = { s with ranks := put s.ranks r e, tremulants := (storeRank s r e).tremulants } := by
  unfold storeRank
  dsimp only
  split
  · rfl
  · rfl

theorem tremulants_storeRank_other {q : Nat} (h : q ≠ r) :
    (storeRank s r e).tremulants.getLsbD q = s.tremulants.getLsbD q := by
  unfold storeRank
  dsimp only
  split
  · exact retakeTremulant_other { s with ranks := put s.ranks r e } r h
  · rfl

theorem storeRank_outside_run (h : s.mode ≠ .run) : storeRank s r e = { s with ranks := put s.ranks r e } := if_neg h

theorem storeRank_in_run (h : s.mode = .run) :
    storeRank s r e = retakeTremulant { s with ranks := put s.ranks r e } r := if_pos h

theorem storeRank_withPort (d : List Byte) (x : Option Response) :
    storeRank (withPort s d x) r e = withPort (storeRank s r e) d x := by
  by_cases h : s.mode = .run
  · rw [storeRank_in_run (withPort s d x) r e h, storeRank_in_run s r e h]
    rfl
  · rw [storeRank_outside_run (withPort s d x) r e h, storeRank_outside_run s r e h]
    rfl

variable {s r e}

/-- The output of a rank that is not in use is off. -/
theorem tremulants_storeRank_same (hrun : s.mode = .run) (hr : r < 64) (h : ¬ RankInUse s r e) :
    (storeRank s r e).tremulants.getLsbD r = false := by
  rw [storeRank_in_run s r e hrun]
  refine Bool.of_not_eq_true fun hon => h ⟨hrun, .inr ?_⟩
  rw [getLsbD_retakeTremulant, if_pos rfl] at hon
  obtain ⟨-, hkind, hnamed⟩ := hon
  rw [rankAt, look_put_same _ _ _ hr] at hkind
  exact ⟨.inr hkind, hnamed⟩

end Store

/-! ### The write (R6) -/

section Write

variable {params : List Byte} {s : State} (hfree : PortFree s) (htaken : takenPlaying s.mode = true)
  (hlength : params.length = 18)
include hfree htaken hlength

theorem exec_tableWriteRank_range (h : 63 < byteAt params 0 ∨ ¬ RankBytesFit (byteAt params)) :
    exec (.tableWriteRank params) s = .next (answered s .range []) := by
  refine exec_refuses rfl hfree htaken hlength ?_
  change writeRankWork params (idleFill s) = _
  unfold writeRankWork
  dsimp only
  split
  · rfl
  next hr =>
    split
    · rfl
    next e he => exact absurd (readRankEntry_params_iff.1 he).1 (h.resolve_left hr)

variable (hr : byteAt params 0 ≤ 63) (hfit : RankBytesFit (byteAt params))
include hr hfit

theorem exec_tableWriteRank_refused {st : Status}
    (h : rankFault s (byteAt params 0) (rankWritten (byteAt params)) = some st) :
    exec (.tableWriteRank params) s = .next (answered s st []) := by
  refine exec_refuses rfl hfree htaken hlength ?_
  change writeRankWork params (idleFill s) = _
  have hidle : rankFault (idleFill s) (byteAt params 0) (rankWritten (byteAt params)) = some st := h
  rw [writeRankWork, readRankEntry_params_iff.2 ⟨hfit, rfl⟩]
  dsimp only
  rw [if_neg (Nat.not_lt.2 hr), hidle]

theorem exec_tableWriteRank_stored (h : rankFault s (byteAt params 0) (rankWritten (byteAt params)) = none) :
    exec (.tableWriteRank params) s =
      .next (storeRank (answered s .ok []) (byteAt params 0) (rankWritten (byteAt params))) := by
  rw [exec_worked rfl hfree htaken hlength]
  change Host.Outcome.next (respond (writeRankWork params (idleFill s))) = _
  have hidle : rankFault (idleFill s) (byteAt params 0) (rankWritten (byteAt params)) = none := h
  rw [writeRankWork, readRankEntry_params_iff.2 ⟨hfit, rfl⟩]
  dsimp only
  rw [if_neg (Nat.not_lt.2 hr), hidle]
  dsimp only
  rw [idleFill_eq_withPort, storeRank_withPort, respond_withPort, answered_eq_withPort, storeRank_withPort]
  rfl

end Write

/-- Settles O9: the checks in their order, and what a stored entry leaves of the tremulant outputs. -/
theorem rankWriteStoresOrRefuses : Obligations.RankWriteStoresOrRefuses := by
  unfold Obligations.RankWriteStoresOrRefuses
  intro params s hlength hfree hmode
  have htaken := takenPlaying_of_ne hmode
  have hdamper (x : Nat × Nat) (h : (rankWritten (byteAt params)).damper = some x) := kind_of_damper h
  refine ⟨exec_tableWriteRank_range hfree htaken hlength, fun hr hfit => ⟨fun h => ?_, fun hbeyond h => ?_,
    fun hbeyond hclear h => ?_, fun hbeyond hclear hfits h => ?_, fun hbeyond hclear hfits h => ?_⟩⟩
  · exact exec_tableWriteRank_refused hfree htaken hlength hr hfit (rankFault_beyond hdamper h)
  · exact exec_tableWriteRank_refused hfree htaken hlength hr hfit (rankFault_overlap hdamper hbeyond h)
  · exact exec_tableWriteRank_refused hfree htaken hlength hr hfit (rankFault_misfit hdamper hbeyond hclear h)
  · exact exec_tableWriteRank_refused hfree htaken hlength hr hfit (rankFault_inUse hdamper hbeyond hclear hfits h)
  · have hfault := rankFault_none hdamper hbeyond hclear hfits h
    refine ⟨_, exec_tableWriteRank_stored hfree htaken hlength hr hfit hfault,
      storeRank_frame (answered s .ok []) _ _, fun q hq => tremulants_storeRank_other (answered s .ok []) _ _ hq,
      fun hconfig => ?_, fun hrun => tremulants_storeRank_same (s := answered s .ok []) hrun (Nat.lt_succ_of_le hr) h⟩
    rw [storeRank_outside_run (answered s .ok []) _ _ fun hrun => Mode.noConfusion (hconfig.symm.trans hrun)]
    rfl

end Sys2Proof.Proofs.RankWrites
end

section
/-! PROOFS. The stop write (R7 to R11; O10). -/

namespace Sys2Proof.Proofs.StopWrites

open Sys2Proof.Machine Sys2Proof.Proofs.ServicePort Sys2Proof.Proofs.Reads Sys2Proof.Proofs.Entries
open Sys2Proof.Proofs.Claims Sys2Proof.Proofs.PortLoss Sys2Proof.Proofs.Registration Sys2Proof.Proofs.Releases
open Sys2Proof.Proofs.Changes Sys2Proof.Proofs.KeysAndTabs

/-! ### Claims stand while a stop comes on -/

theorem holdsClaim_setRecord {s : State} {i : Nat} {r : Record}
    (h : ∀ q, recordAt s i = some q → q.claims ⊆ r.claims) {c : Claim} (hc : HoldsClaim s c) :
    HoldsClaim (setRecord s i (some r)) c := by
  obtain ⟨j, q, hq, hmem⟩ := hc
  by_cases hij : i = j
  · subst hij
    exact ⟨i, r, by rw [recordAt_setRecord, if_pos ⟨rfl, recordAt_lt hq⟩], h q hq hmem⟩
  · exact ⟨j, q, by rw [recordAt_setRecord, if_neg fun hx => hij hx.1, hq], hmem⟩

theorem holdsClaim_admissionRequest {s : State} (i : Nat) {c : Claim} (hc : HoldsClaim s c) :
    HoldsClaim (admissionRequest s i) c :=
  (holdsClaim_iff_of_sameDemands (sameDemands_admissionRequest s i) c).mpr hc

theorem holdsClaim_joinClaim {s : State} {i : Nat} {r : Record} (hr : recordAt s i = some r) (d : Claim) {c : Claim}
    (hc : HoldsClaim s c) : HoldsClaim (joinClaim s i r d) c := by
  have hjoined : HoldsClaim (setRecord s i (some (joined r d))) c := holdsClaim_setRecord (fun q hq => by
    obtain rfl := Option.some.inj (hr.symm.trans hq)
    exact List.subset_append_left _ _) hc
  unfold joinClaim
  dsimp only
  split
  · exact holdsClaim_admissionRequest i hjoined
  · exact hjoined

/-- A claim request takes no claim away. -/
theorem holdsClaim_claimRequest {s : State} (d : Claim) (rank pipe : Nat) {c : Claim} (hc : HoldsClaim s c) :
    HoldsClaim (claimRequest s d rank pipe) c := by
  unfold claimRequest
  split
  · split
    · exact hc
    next r hr =>
      split
      · exact hc
      split
      · exact hc
      · exact holdsClaim_joinClaim hr d hc
  · split
    · exact hc
    split
    · exact hc
    next i hi =>
      refine holdsClaim_admissionRequest i (holdsClaim_setRecord (fun q hq => ?_) hc)
      rw [(lowestFree_some hi).1] at hq
      cases hq

theorem holdsClaim_claimFor {s : State} (p : PortId) (d : Nat) (t : Touch) (k n : Nat) {c : Claim}
    (hc : HoldsClaim s c) : HoldsClaim (claimFor s p d t k n) c := by
  unfold claimFor
  split
  · exact hc
  · exact holdsClaim_claimRequest _ _ _ hc

theorem holdsClaim_claimHeldKeys {s : State} (n : Nat) {c : Claim} (hc : HoldsClaim s c) :
    HoldsClaim (claimHeldKeys s n) c := by
  unfold claimHeldKeys
  dsimp only
  split
  · exact hc
  · exact List.foldlRecOn (motive := fun u => HoldsClaim u c) _ _ hc fun u hu k _ => holdsClaim_claimFor _ _ _ k n hu

/-- A stop coming on moves the claims of no other stop. -/
theorem holdsClaim_comeOn_iff (s : State) {n : Nat} {c : Claim} (h : c.stop ≠ n) :
    HoldsClaim (comeOn true s n) c ↔ HoldsClaim s c := by
  refine ⟨fun hc => ((plays_comeOn true s n).claims c hc).resolve_right fun hx => h hx.2.1, fun hc => ?_⟩
  unfold comeOn
  split
  · exact hc
  · exact hc
  · exact holdsClaim_claimHeldKeys n hc
  · exact holdsClaim_claimHeldKeys n hc

/-! ### A stop retired (R10) -/

section Retire

variable (s : State) (n : Nat)

/-- The stop undrawn and out of both ports' drive sets. -/
def stopUndrawn : State :=
  undrive (undrive (setDrawn s (withBit s.drawn n false)) .A (BitVec.twoPow 256 n)) .B (BitVec.twoPow 256 n)

/-- A port that does not drive the stop. -/
def undrivenPort (c : ConsolePort) : ConsolePort :=
  { c with
    recallSlot := { c.recallSlot with
      driveOn := c.recallSlot.driveOn &&& ~~~ BitVec.twoPow 256 n
      driveOff := c.recallSlot.driveOff &&& ~~~ BitVec.twoPow 256 n } }

theorem stopUndrawn_frame : stopUndrawn s n = { s with
    drawn := s.drawn &&& ~~~ BitVec.twoPow 256 n, portA := undrivenPort n s.portA, portB := undrivenPort n s.portB } := rfl

theorem portAt_stopUndrawn (p : PortId) : portAt (stopUndrawn s n) p = undrivenPort n (portAt s p) := by
  cases p <;> rfl

theorem stopReleased_eq :
    stopReleased s n = setStop (releaseRequest (stopUndrawn s n) (.stop n)) n StopEntry.unset := rfl

theorem retireStop_frame : retireStop s n = { stopReleased s n with tremulants := (retireStop s n).tremulants } := by
  rw [retireStop_eq]
  split
  · rfl
  · rfl

/-- The state in which the new entry is stored. -/
def stopStored (e : StopEntry) : State := setStop (retireStop s n) n e

theorem rewriteStop_eq (e : StopEntry) : rewriteStop s n e =
    if effective (stopStored s n e) n then comeOn true (stopStored s n e) n else stopStored s n e := rfl

theorem setStop_setStop (u : State) (x y : StopEntry) : setStop (setStop u n x) n y = setStop u n y := by
  simp only [setStop, put, Vector.setIfInBounds_setIfInBounds]

/-- Beside the outputs of the tremulants the stored state is the released one with the entry in it. -/
theorem stopStored_eq (e : StopEntry) : stopStored s n e =
    { setStop (releaseRequest (stopUndrawn s n) (.stop n)) n e with tremulants := (stopStored s n e).tremulants } := by
  have h : stopStored s n e = setStop { stopReleased s n with tremulants := (retireStop s n).tremulants } n e :=
    congrArg (fun u => setStop u n e) (retireStop_frame s n)
  rw [h, stopReleased_eq]
  simp only [setStop, put, Vector.setIfInBounds_setIfInBounds]

theorem stopStored_frame (e : StopEntry) : stopStored s n e = { s with
    stops := put s.stops n e, drawn := s.drawn &&& ~~~ BitVec.twoPow 256 n
    portA := (stopStored s n e).portA, portB := (stopStored s n e).portB, table := (stopStored s n e).table
    rails := (stopStored s n e).rails, counters := (stopStored s n e).counters
    tremulants := (stopStored s n e).tremulants } := by
  rw [stopStored_eq, releaseRequest_frame, stopUndrawn_frame]
  rfl

theorem portAt_stopStored (e : StopEntry) (p : PortId) :
    portAt (stopStored s n e) p = undrivenPort n (portAt s p) := by
  rw [stopStored_eq, releaseRequest_frame, ← portAt_stopUndrawn]
  cases p <;> rfl

theorem releasedBy_stopStored (e : StopEntry) : ReleasedBy (fun _ c => c.stop == n) s (stopStored s n e) := by
  have h : ReleasedBy (fun _ c => c.stop == n) s (releaseRequest (stopUndrawn s n) (.stop n)) :=
    releasedBy_releaseRequest (stopUndrawn s n) (.stop n)
  rw [stopStored_eq]
  exact h

theorem holdsClaim_stopStored_iff (e : StopEntry) (c : Claim) :
    HoldsClaim (stopStored s n e) c ↔ HoldsClaim s c ∧ c.stop ≠ n := by
  rw [holdsClaim_iff_of_releasedBy (releasedBy_stopStored s n e)]
  simp only [HoldsClaim, beq_eq_false_iff_ne, ← and_assoc, exists_and_right]

theorem stopAt_stopStored (hn : n < 256) (e : StopEntry) : stopAt (stopStored s n e) n = e := by
  rw [stopStored, stopAt_setStop, if_pos ⟨rfl, hn⟩]

theorem tremulants_stopStored_plain (h : (stopAt s n).kind ≠ .tremulant) (e : StopEntry) :
    (stopStored s n e).tremulants = s.tremulants := by
  have hretired : retireStop s n = stopReleased s n := by rw [retireStop_eq, if_neg h]
  rw [stopStored, hretired, stopReleased_eq, releaseRequest_frame]
  rfl

section Tremulant

variable (h : (stopAt s n).kind = .tremulant) (e : StopEntry)
include h

theorem tremulants_stopStored_tremulant :
    (stopStored s n e).tremulants = (retakeTremulant (stopReleased s n) (stopAt s n).rank).tremulants := by
  rw [stopStored, retireStop_eq, if_pos h]
  rfl

theorem tremulants_stopStored_other {q : Nat} (hq : q ≠ (stopAt s n).rank) :
    (stopStored s n e).tremulants.getLsbD q = s.tremulants.getLsbD q := by
  rw [tremulants_stopStored_tremulant s n h, retakeTremulant_other _ _ hq, stopReleased_eq, releaseRequest_frame]
  rfl

/-- The output of the rank that the stop named is on while another effective TREMULANT stop names it. -/
theorem tremulants_stopStored_named (hn : n < 256) (hrun : s.mode = .run) :
    (stopStored s n e).tremulants.getLsbD (stopAt s n).rank = true ↔
      (rankAt s (stopAt s n).rank).kind = .tremulant
        ∧ ∃ m, m < 256 ∧ m ≠ n ∧ (stopAt s m).kind = .tremulant ∧ (stopAt s m).rank = (stopAt s n).rank
          ∧ effective s m = true := by
  have hbut := butStop_stopReleased s n
  have hmode : (stopReleased s n).mode = .run := by
    rw [stopReleased_eq, releaseRequest_frame]
    exact hrun
  have hrank : rankAt (stopReleased s n) (stopAt s n).rank = rankAt s (stopAt s n).rank := by
    rw [rankAt, hbut.ranks, rankAt]
  rw [tremulants_stopStored_tremulant s n h, getLsbD_retakeTremulant, if_pos rfl, DueOn, hrank, and_iff_right hmode]
  refine and_congr_right fun _ => exists_congr fun m => and_congr_right fun _ => ?_
  by_cases hm : m = n
  · subst hm
    rw [stopAt_stopReleased s hn]
    exact iff_of_false (fun hx => StopKind.noConfusion hx.1) fun hx => hx.1 rfl
  · rw [hbut.stops m hm, hbut.effective m hm]
    exact (and_iff_right hm).symm

end Tremulant

end Retire

/-! ### The rewritten stop (R11) -/

theorem changeFrame_comeOn (s : State) (n : Nat) : ChangeFrame s (comeOn true s n) :=
  Turns.changeFrame_foldl (turns_comeOn true) [n] s

theorem effective_of_changeFrame {s t : State} (h : ChangeFrame s t) (n : Nat) : effective t n = effective s n := by
  rw [ChangeFrame] at h
  rw [h]
  rfl

/-- Whether a key reads made does not lie in the recall slot. -/
theorem keyReadsMade_undrivenPort (n : Nat) (c : ConsolePort) (d : Nat) (t : Touch) (k : Nat) :
    KeyReadsMade (undrivenPort n c) d t k ↔ KeyReadsMade c d t k := Iff.rfl

section Rewrite

variable {s : State} {n : Nat} {e : StopEntry}

theorem rewriteStop_idle (h : effective (stopStored s n e) n = false) : rewriteStop s n e = stopStored s n e := by
  rw [rewriteStop_eq, h, if_neg Bool.false_ne_true]

theorem rewriteStop_on (h : effective (stopStored s n e) n = true) :
    rewriteStop s n e = comeOn true (stopStored s n e) n := by
  rw [rewriteStop_eq, if_pos h]

theorem changeFrame_rewriteStop (s : State) (n : Nat) (e : StopEntry) :
    ChangeFrame (stopStored s n e) (rewriteStop s n e) := by
  rw [rewriteStop_eq]
  split
  · exact changeFrame_comeOn _ n
  · exact .refl _

theorem rewriteStop_unused (hn : n < 256) (h : e.kind = .unused) : rewriteStop s n e = stopStored s n e := by
  rw [rewriteStop_eq, comeOn_unused (by rw [stopAt_stopStored s n hn, h]), ite_self]

section TremulantEntry

variable (hn : n < 256) (hon : effective (stopStored s n e) n = true) (hkind : e.kind = .tremulant)
include hn hon hkind

theorem rewriteStop_tremulant : rewriteStop s n e = retakeTremulant (stopStored s n e) e.rank := by
  rw [rewriteStop_on hon, comeOn_tremulant (by rw [stopAt_stopStored s n hn, hkind]), stopAt_stopStored s n hn]

theorem tremulants_rewriteStop_other {q : Nat} (hq : q ≠ e.rank) :
    (rewriteStop s n e).tremulants.getLsbD q = (stopStored s n e).tremulants.getLsbD q := by
  rw [rewriteStop_tremulant hn hon hkind, retakeTremulant_other _ _ hq]

theorem tremulants_rewriteStop_own (hrun : s.mode = .run) :
    (rewriteStop s n e).tremulants.getLsbD e.rank = true ↔ (rankAt s e.rank).kind = .tremulant := by
  have hmode : (stopStored s n e).mode = .run := by
    rw [stopStored_frame]
    exact hrun
  have hrank : rankAt (stopStored s n e) e.rank = rankAt s e.rank := by
    rw [stopStored_frame]
    rfl
  have hat := stopAt_stopStored s n hn e
  rw [rewriteStop_tremulant hn hon hkind, getLsbD_retakeTremulant, if_pos rfl, DueOn, hrank, and_iff_right hmode]
  exact and_iff_left ⟨n, hn, by rw [hat, hkind], by rw [hat], hon⟩

end TremulantEntry

theorem granting_stopStored (s : State) (n : Nat) (e : StopEntry) (d : Nat) : granting (stopStored s n e) d = granting s d := by
  rw [stopStored_frame]
  rfl

section KeyedEntry

variable (hn : n < 256) (hon : effective (stopStored s n e) n = true) (hkind : e.kind = .voice ∨ e.kind = .fixed)
include hn hon hkind

theorem rewriteStop_keyed : rewriteStop s n e = claimHeldKeys (stopStored s n e) n := by
  rw [rewriteStop_on hon, comeOn_keyed (by rw [stopAt_stopStored s n hn]; exact hkind), if_pos rfl]

theorem rewriteStop_ungranted (h : granting s e.division = none) : rewriteStop s n e = stopStored s n e := by
  rw [rewriteStop_keyed hn hon hkind, claimHeldKeys_ungranted]
  rw [stopAt_stopStored s n hn, granting_stopStored, h]

/-- The claims of the held keys of the stop's division and touch, as the statement lists them. -/
theorem rewriteStop_granted {p : PortId} (h : granting s e.division = some p) {ks : List Nat}
    (hasc : ks.Pairwise (· < ·))
    (hmem : ∀ k, k ∈ ks ↔ k < Config.compass e.division ∧ KeyReadsMade (portAt s p) e.division e.touch k) :
    rewriteStop s n e =
      ks.foldl (fun v k => asksClaim (stopStored s n e) p e.division e.touch v k n) (stopStored s n e) := by
  have hat := stopAt_stopStored s n hn e
  have hheld := claimHeldKeys_granted (s := stopStored s n e) (n := n) (p := p)
    (by rw [hat, granting_stopStored, h]) hasc (by
      rw [hat, portAt_stopStored]
      exact hmem)
  rw [hat] at hheld
  rw [rewriteStop_keyed hn hon hkind, hheld]

end KeyedEntry

/-- The claims of the other stops stand. -/
theorem holdsClaim_rewriteStop_iff {c : Claim} (h : c.stop ≠ n) : HoldsClaim (rewriteStop s n e) c ↔ HoldsClaim s c := by
  have hstored : HoldsClaim (stopStored s n e) c ↔ HoldsClaim s c :=
    (holdsClaim_stopStored_iff s n e c).trans (and_iff_left h)
  rw [rewriteStop_eq]
  split
  · exact (holdsClaim_comeOn_iff _ h).trans hstored
  · exact hstored

/-- While the stop is not effective no record holds a claim of it. -/
theorem stop_ne_of_rewriteStop (h : effective (rewriteStop s n e) n = false) {c : Claim}
    (hc : HoldsClaim (rewriteStop s n e) c) : c.stop ≠ n := by
  rw [effective_of_changeFrame (changeFrame_rewriteStop s n e)] at h
  rw [rewriteStop_idle h] at hc
  exact ((holdsClaim_stopStored_iff s n e c).mp hc).2

/-- What stands through a stop write, beside the stop and its drawn state. -/
theorem kept_rewriteStop (s : State) (n : Nat) (e : StopEntry) :
    (rewriteStop s n e).response = s.response ∧ (rewriteStop s n e).stops = put s.stops n e
      ∧ (rewriteStop s n e).drawn = s.drawn &&& ~~~ BitVec.twoPow 256 n
      ∧ (rewriteStop s n e).combination = s.combination ∧ (rewriteStop s n e).crescendo = s.crescendo
      ∧ (rewriteStop s n e).grants = s.grants ∧ (rewriteStop s n e).mode = s.mode := by
  have h := changeFrame_rewriteStop s n e
  have hstored := stopStored_frame s n e
  rw [ChangeFrame] at h
  rw [h]
  dsimp only
  rw [hstored]
  exact ⟨rfl, rfl, rfl, rfl, rfl, rfl, rfl⟩

theorem driveSet_rewriteStop (s : State) (n : Nat) (e : StopEntry) (p : PortId) :
    (driveSet (portAt (rewriteStop s n e) p)).getLsbD n = false := by
  rw [portAt_of_changeFrame (changeFrame_rewriteStop s n e), portAt_stopStored, driveSet_eq_false_iff]
  have hout (x : StopSet) : (x &&& ~~~ BitVec.twoPow 256 n).getLsbD n = false := by
    rw [BitVec.getLsbD_and, BitVec.getLsbD_not, BitVec.getLsbD_twoPow]
    by_cases hn : n < 256 <;> simp [hn]
  exact ⟨hout _, hout _⟩

end Rewrite

/-! ### The write (R8) -/

section Write

variable {params : List Byte} {s : State} (hfree : PortFree s) (hlength : params.length = 10)
include hfree hlength

theorem exec_tableWriteStop_range (htaken : takenPlaying s.mode = true) (h : ¬ StopBytesFit (byteAt params)) :
    exec (.tableWriteStop params) s = .next (answered s .range []) := by
  refine exec_refuses rfl hfree htaken hlength ?_
  change writeStopWork params (idleFill s) = _
  unfold writeStopWork
  split
  · rfl
  next e he => exact absurd (readStopEntry_params_iff.1 he).1 h

variable (hfit : StopBytesFit (byteAt params))
include hfit

theorem exec_tableWriteStop (htaken : takenPlaying s.mode = true) : exec (.tableWriteStop params) s =
    .next (respond (if s.mode = .run then rewriteStop (idleFill s) (byteAt params 0) (stopWritten (byteAt params))
      else setStop (idleFill s) (byteAt params 0) (stopWritten (byteAt params)), okWith [])) := by
  rw [exec_worked rfl hfree htaken hlength]
  change Host.Outcome.next (respond (writeStopWork params (idleFill s))) = _
  rw [writeStopWork, readStopEntry_params_iff.2 ⟨hfit, rfl⟩]
  rfl

theorem exec_tableWriteStop_config (hconfig : s.mode = .config) : exec (.tableWriteStop params) s =
    .next { answered s .ok [] with stops := put s.stops (byteAt params 0) (stopWritten (byteAt params)) } := by
  rw [exec_tableWriteStop hfree hlength hfit (by rw [hconfig]; rfl), hconfig, if_neg Mode.noConfusion]
  rfl

theorem exec_tableWriteStop_run (hrun : s.mode = .run) : exec (.tableWriteStop params) s =
    .next (rewriteStop (answered s .ok []) (byteAt params 0) (stopWritten (byteAt params))) := by
  rw [exec_tableWriteStop hfree hlength hfit (by rw [hrun]; rfl), if_pos hrun, idleFill_eq_withPort,
    rewriteStop_withPort, respond_withPort, answered_eq_withPort, rewriteStop_withPort]
  rfl

end Write

/-- Settles O10. -/
theorem stopWriteRetiresTheStop : Obligations.StopWriteRetiresTheStop := by
  unfold Obligations.StopWriteRetiresTheStop
  intro params s hlength hfree
  refine ⟨fun hmode => exec_tableWriteStop_range hfree hlength (takenPlaying_of_ne hmode), fun hfit =>
    ⟨exec_tableWriteStop_config hfree hlength hfit, fun hrun => ?_⟩⟩
  have hn : byteAt params 0 < 256 := byteAt_lt params 0
  have hport (p : PortId) : portAt (answered s .ok []) p = portAt s p := by cases p <;> rfl
  obtain ⟨hresponse, hstops, hdrawn, hcombination, hcrescendo, hgrants, hmode⟩ :=
    kept_rewriteStop (answered s .ok []) (byteAt params 0) (stopWritten (byteAt params))
  refine ⟨stopStored (answered s .ok []) (byteAt params 0) (stopWritten (byteAt params)), _,
    exec_tableWriteStop_run hfree hlength hfit hrun, stopStored_frame (answered s .ok []) _ _, fun p => ?_,
    releasedBy_stopStored (answered s .ok []) _ _, holdsClaim_stopStored_iff (answered s .ok []) _ _,
    fun hplain => tremulants_stopStored_plain (answered s .ok []) _ hplain _, fun hwas => ⟨fun q hq => ?_, fun _ => ?_⟩, ?_,
    fun hon hkind => ⟨?_, fun q hq => ?_, ?_⟩, fun hon hkind => ⟨fun hnone => ?_, fun p ks hp hasc hmem => ?_⟩,
    fun c hc => holdsClaim_rewriteStop_iff hc, hresponse, hstops, hdrawn, driveSet_rewriteStop (answered s .ok []) _ _,
    fun hoff c hc => stop_ne_of_rewriteStop hoff hc, hcombination, hcrescendo, hgrants, hmode⟩
  · rw [portAt_stopStored, hport]
    rfl
  · exact tremulants_stopStored_other (answered s .ok []) _ hwas _ hq
  · exact tremulants_stopStored_named (answered s .ok []) _ hwas _ hn hrun
  · rintro (hoff | hunused)
    · exact rewriteStop_idle hoff
    · exact rewriteStop_unused hn hunused
  · rw [rewriteStop_tremulant hn hon hkind]
    rfl
  · exact tremulants_rewriteStop_other hn hon hkind hq
  · exact tremulants_rewriteStop_own (s := answered s .ok []) hn hon hkind hrun
  · exact rewriteStop_ungranted (s := answered s .ok []) hn hon hkind hnone
  · refine rewriteStop_granted (s := answered s .ok []) hn hon hkind hp hasc ?_
    rw [hport]
    exact hmem

end Sys2Proof.Proofs.StopWrites
end

section
/-! PROOFS. START (R164; O16) and STOP (R165, R166; O17). -/

namespace Sys2Proof.Proofs.Modes

open Sys2Proof.Machine Sys2Proof.Proofs.ServicePort Sys2Proof.Proofs.Reads Sys2Proof.Proofs.Claims
open Sys2Proof.Proofs.PortLoss Sys2Proof.Proofs.Moving Sys2Proof.Proofs.Kept Sys2Proof.Proofs.RecordTimers
open Sys2Proof.Proofs.Releases Sys2Proof.Proofs.ChamberLinks Sys2Proof.Proofs.Restart

/-! ### STOP (O17) -/

/-- What STOP's request comes to. -/
def stopped (s : State) : State := respond (settleMode (stopRun (idleFill s)), okWith [])

theorem exec_stop {s : State} (hfree : PortFree s) (hrun : s.mode = .run) :
    exec (.stop []) s = .next (stopped s) := by
  rw [exec_worked rfl hfree (takenInRun_iff.mpr hrun) rfl]
  rfl

/-- The end of the quiesce moves the mode, the links and attention alone. -/
theorem settleMode_frame (s : State) : settleMode s = { s with
    mode := (settleMode s).mode, links := (settleMode s).links, pendingCauses := (settleMode s).pendingCauses
    details := (settleMode s).details, firstCause := (settleMode s).firstCause } := by
  unfold settleMode
  split
  · rfl
  · rfl

/-- STOP, beside the end of the quiesce, is the relay shut and one release request of every claim. -/
theorem stopped_frame (s : State) : stopped s = { s with
    mode := (stopped s).mode, links := (stopped s).links, pendingCauses := (stopped s).pendingCauses
    details := (stopped s).details, firstCause := (stopped s).firstCause
    portA := (shut s).portA, portB := (shut s).portB, tremulants := 0
    table := (stopRun (idleFill s)).table, rails := (stopRun (idleFill s)).rails
    counters := (stopRun (idleFill s)).counters, dataOut := [], response := some (okWith []) } := by
  have hstopped : stopped s = { settleMode (stopRun (idleFill s)) with response := some (okWith []) } := rfl
  have hrelease := releaseRequest_frame (shut (idleFill s)) .all
  rw [hstopped, settleMode_frame, stopRun_eq, hrelease]
  rfl

theorem kept_stopped (s : State) : (stopped s).response = some (okWith []) ∧ (stopped s).tremulants = 0
    ∧ (stopped s).drawn = s.drawn ∧ (stopped s).grants = s.grants ∧ (stopped s).runs = s.runs
    ∧ (stopped s).dirty = s.dirty ∧ (stopped s).faults = s.faults ∧ (stopped s).mutes = s.mutes := by
  rw [stopped_frame]
  exact ⟨rfl, rfl, rfl, rfl, rfl, rfl, rfl, rfl⟩

theorem portAt_shut (s : State) (p : PortId) :
    portAt (shut s) p = { portOff (portAt s p) with recallSlot := RecallSlot.idle } := by
  cases p <;> rfl

theorem portAt_stopped (s : State) (p : PortId) :
    portAt (stopped s) p = { portOff (portAt s p) with recallSlot := RecallSlot.idle } := by
  rw [stopped_frame, ← portAt_shut]
  cases p <;> rfl

theorem releasedBy_stopped (s : State) : ReleasedBy (fun _ _ => true) s (stopped s) := by
  have h : ReleasedBy (fun _ _ => true) s (stopRun (idleFill s)) := releasedBy_releaseRequest (shut (idleFill s)) .all
  rw [stopped_frame]
  exact h

theorem not_holdsClaim_stopped (s : State) (c : Claim) : ¬ HoldsClaim (stopped s) c := by
  rw [holdsClaim_iff_of_releasedBy (releasedBy_stopped s)]
  rintro ⟨i, r, -, -, hkept⟩
  cases hkept

theorem quiesceDone_stopRun (s : State) : quiesceDone (stopRun (idleFill s)) = true ↔
    tableEmpty (stopped s) = true
      ∧ ∀ l, l < 4 → (linkAt s l).entry.enabled = false ∨ (linkAt s l).served = true := by
  obtain ⟨-, -, hmode, hlinks, -⟩ := stopRun_frame (idleFill s)
  have hserved : AllServed (stopRun (idleFill s)) ↔
      ∀ l, l < 4 → (linkAt s l).entry.enabled = false ∨ (linkAt s l).served = true := by
    unfold AllServed
    simp only [linkAt, hlinks]
    rfl
  have htable : tableEmpty (stopped s) = tableEmpty (stopRun (idleFill s)) := by
    rw [tableEmpty, congrArg State.table (stopped_frame s), tableEmpty]
  rw [quiesceDone_iff, and_iff_right hmode, hserved, htable, tableEmpty_iff]

section NotDone

variable {s : State} (h : ¬ quiesceDone (stopRun (idleFill s)) = true)
include h

theorem stopped_quiescing : stopped s = { stopRun (idleFill s) with response := some (okWith []) } := by
  unfold stopped
  rw [settleMode_of_not_done h]
  rfl

/-- Until the quiesce ends, the links and attention stand. -/
theorem stopped_waits : (stopped s).mode = .quiescing ∧ (stopped s).links = s.links
    ∧ (stopped s).pendingCauses = s.pendingCauses ∧ (stopped s).details = s.details
    ∧ (stopped s).firstCause = s.firstCause := by
  rw [stopped_quiescing h, stopRun_eq, releaseRequest_frame]
  exact ⟨rfl, rfl, rfl, rfl, rfl⟩

end NotDone

/-- The quiesce over, the relay is in CONFIG and says so. -/
theorem stopped_done {s : State} (h : quiesceDone (stopRun (idleFill s)) = true) :
    (stopped s).mode = .config ∧ (stopped s).pendingCauses.getLsbD 11 = true
      ∧ look (stopped s).details 11 .none = .none
      ∧ ∀ l, l < 4 → linkAt (stopped s) l = Link.idle (linkAt s l).entry := by
  have hstopped : stopped s = { completeQuiesce (stopRun (idleFill s)) with response := some (okWith []) } := by
    unfold stopped
    rw [settleMode_of_done h]
    rfl
  obtain ⟨hmode, -, hpending, hdetails⟩ := completeQuiesce_reports (stopRun (idleFill s))
  obtain ⟨-, -, -, hlinks, -⟩ := stopRun_frame (idleFill s)
  rw [hstopped]
  refine ⟨hmode, hpending, hdetails, fun l hl => ?_⟩
  have hlink := linkAt_completeQuiesce (stopRun (idleFill s)) hl
  have hsame : linkAt (stopRun (idleFill s)) l = linkAt s l := linkAt_of_links hlinks l
  rw [hsame] at hlink
  exact hlink

theorem shadeDemand_outside_run {s : State} (h : s.mode ≠ .run) (l e : Nat) : shadeDemand s l e = 0 := by
  have hmode : (s.mode == .run) = false := beq_false_of_ne h
  rw [shadeDemand, hmode]
  rfl

theorem counterAt_stopped (s : State) {c : Counter} (hc : Counter.place c ≠ Counter.place .deferredAdmissions) :
    counterAt (stopped s) c = counterAt s c := counterAt_of_releasedBy hc (releasedBy_stopped s)

/-- The counters of the ports are not that of deferrals. -/
theorem place_ports_ne (q : PortId) : Counter.place (.validFrames q) ≠ Counter.place .deferredAdmissions
    ∧ Counter.place (.earlyStarts q) ≠ Counter.place .deferredAdmissions
    ∧ Counter.place (.checkFailures q) ≠ Counter.place .deferredAdmissions
    ∧ Counter.place (.ungranted q) ≠ Counter.place .deferredAdmissions := by
  cases q <;> decide

/-- Settles O17. -/
theorem stopLeavesRun : Obligations.StopLeavesRun := by
  unfold Obligations.StopLeavesRun
  intro s hfree hrun
  have hmode : (stopped s).mode = .quiescing ∨ (stopped s).mode = .config := by
    by_cases h : quiesceDone (stopRun (idleFill s)) = true
    · exact .inr (stopped_done h).1
    · exact .inl (stopped_waits h).1
  have hnotRun : (stopped s).mode ≠ .run := by
    rcases hmode with h | h <;> rw [h] <;> exact Mode.noConfusion
  obtain ⟨hresponse, htremulants, hkept⟩ := kept_stopped s
  obtain ⟨hdrawn, hgrants, hruns, hdirty, hfaults, hmutes⟩ := hkept
  refine ⟨stopped s, exec_stop hfree hrun, hresponse, hmode,
    ⟨fun hnot => stopped_waits (mt (quiesceDone_stopRun s).mp hnot),
      fun hdone => stopped_done ((quiesceDone_stopRun s).mpr hdone)⟩, releasedBy_stopped s, fun p => ?_,
    not_holdsClaim_stopped s, htremulants, shadeDemand_outside_run hnotRun, hdrawn, hgrants, hruns, hdirty, hfaults,
    hmutes, fun q => ?_⟩
  · rw [portAt_stopped]
    exact ⟨rfl, rfl, rfl, rfl, rfl, rfl, rfl, rfl, rfl⟩
  · obtain ⟨hvalid, hearly, hcheck, hungranted⟩ := place_ports_ne q
    exact ⟨counterAt_stopped s hvalid, counterAt_stopped s hearly, counterAt_stopped s hcheck,
      counterAt_stopped s hungranted⟩

/-! ### The offences of a configuration (R164) -/

section Offences

variable {s : State}

/-- A rail whose entry is unset. -/
def BadRail (s : State) (k : Nat) : Prop :=
  (railAt s k).entry = { capacity := 0, high := 0, low := 0, deferLimit := 0 }

/-- A rank with records whose pull units exceed its rail's capacity. -/
def BadRank (s : State) (r : Nat) : Prop :=
  (rankAt s r).kind ≠ .unused ∧ (rankAt s r).kind ≠ .tremulant
    ∧ (railAt s (rankAt s r).rail).entry.capacity < (rankAt s r).pull

/-- An enabled PERIODIC link whose period is shorter than its operation. -/
def BadLink (s : State) (l : Nat) : Prop :=
  (linkAt s l).entry.enabled = true ∧ (linkAt s l).entry.mode = .periodic
    ∧ (linkAt s l).entry.period
        * (if (linkAt s l).entry.rate = 0 then 250 else if (linkAt s l).entry.rate = 1 then 500 else 1000)
      < 2 * ((linkAt s l).entry.slots + 1) * 16

theorem railOffends_iff {k : Nat} : railOffends s k = true ↔ BadRail s k := beq_iff_eq

theorem rankOffends_iff {r : Nat} : rankOffends s r = true ↔ BadRank s r := by
  rw [rankOffends, Bool.and_eq_true, decide_eq_true_eq, RankWrites.usesNotes_iff, and_assoc]
  rfl

theorem linkOffends_iff {l : Nat} : linkOffends s l = true ↔ BadLink s l := by
  rw [linkOffends, Bool.and_eq_true, Bool.and_eq_true, decide_eq_true_eq, beq_iff_eq, and_assoc]
  rfl

/-- The search finds the first of a range that passes its test. -/
theorem find_range_first {n k : Nat} {f : Nat → Bool} (hk : k < n) (h : f k = true) (hfirst : ∀ j, j < k → ¬ f j = true) :
    (List.range n).find? f = some k :=
  List.find?_range_eq_some.mpr ⟨h, List.mem_range.mpr hk, fun j hj => by rw [Bool.of_not_eq_true (hfirst j hj)]; rfl⟩

theorem find_range_none {n : Nat} {f : Nat → Bool} (h : ∀ k, k < n → ¬ f k = true) : (List.range n).find? f = none :=
  List.find?_range_eq_none.mpr fun k hk => by rw [Bool.of_not_eq_true (h k hk)]; rfl

theorem find_rail_none (h : ∀ k, k < 4 → ¬ BadRail s k) : four.find? (railOffends s) = none :=
  find_range_none (n := 4) fun k hk => mt railOffends_iff.mp (h k hk)

theorem find_rank_none (h : ∀ r, r < 64 → ¬ BadRank s r) : (List.range 64).find? (rankOffends s) = none :=
  find_range_none fun r hr => mt rankOffends_iff.mp (h r hr)

theorem firstOffence_rail {k : Nat} (hk : k < 4) (h : BadRail s k) (hfirst : ∀ j, j < k → ¬ BadRail s j) :
    firstOffence s = some (6, k) := by
  have hfind : four.find? (railOffends s) = some k :=
    find_range_first hk (railOffends_iff.mpr h) fun j hj => mt railOffends_iff.mp (hfirst j hj)
  rw [firstOffence, hfind]

theorem firstOffence_rank (hrails : ∀ k, k < 4 → ¬ BadRail s k) {r : Nat} (hr : r < 64) (h : BadRank s r)
    (hfirst : ∀ q, q < r → ¬ BadRank s q) : firstOffence s = some (0, r) := by
  have hfind : (List.range 64).find? (rankOffends s) = some r :=
    find_range_first hr (rankOffends_iff.mpr h) fun q hq => mt rankOffends_iff.mp (hfirst q hq)
  rw [firstOffence, find_rail_none hrails, hfind]

theorem firstOffence_link (hrails : ∀ k, k < 4 → ¬ BadRail s k) (hranks : ∀ r, r < 64 → ¬ BadRank s r) {l : Nat}
    (hl : l < 4) (h : BadLink s l) (hfirst : ∀ m, m < l → ¬ BadLink s m) : firstOffence s = some (5, l) := by
  have hfind : four.find? (linkOffends s) = some l :=
    find_range_first hl (linkOffends_iff.mpr h) fun m hm => mt linkOffends_iff.mp (hfirst m hm)
  rw [firstOffence, find_rail_none hrails, find_rank_none hranks, hfind]

theorem firstOffence_none (hrails : ∀ k, k < 4 → ¬ BadRail s k) (hranks : ∀ r, r < 64 → ¬ BadRank s r)
    (hlinks : ∀ l, l < 4 → ¬ BadLink s l) : firstOffence s = none := by
  have hfind : four.find? (linkOffends s) = none :=
    find_range_none (n := 4) fun l hl => mt linkOffends_iff.mp (hlinks l hl)
  rw [firstOffence, find_rail_none hrails, find_rank_none hranks, hfind]

end Offences

/-! ### The links' first frames (R148, R151, R164) -/

/-- No outlet is demanded in RUN, nor is any frame begun noted for a quiesce. -/
def Silent (s : State) : Prop :=
  s.mode = .run ∧ ∀ l, demandedImage s l = 0

/-- A link as START leaves it. -/
def startedLink (x : Link) : Link :=
  if x.entry.enabled then begun { Link.idle x.entry with state := .up } 0 false else x

theorem outputImage_of_silent {s : State} (h : Silent s) (l : Nat) : outputImage s l = 0 := by
  refine BitVec.eq_of_getLsbD_eq fun i hi => ?_
  rw [outputImage, getLsbD_bitsOf, h.2 l]
  simp

theorem startLink_eq {s : State} (h : Silent s) {l : Nat} (hl : l < 4) :
    startLink s l = setLink s l (startedLink (linkAt s l)) := by
  have hsilent : Silent (setLink s l { Link.idle (linkAt s l).entry with state := .up }) := h
  have hmode : (setLink s l { Link.idle (linkAt s l).entry with state := .up }).mode = .run := h.1
  unfold startLink startedLink
  split
  · rw [beginFrame, outputImage_of_silent hsilent, hmode, linkAt_setLink, if_pos ⟨rfl, hl⟩]
    simp only [setLink, put, Vector.setIfInBounds_setIfInBounds]
    rfl
  · rw [setLink, linkAt, Supply.put_look _ _ hl]

theorem silent_startLink {s : State} (h : Silent s) {l : Nat} (hl : l < 4) : Silent (startLink s l) := by
  rw [startLink_eq h hl]
  exact h

theorem foldl_startLink_frame {s : State} (h : Silent s) {xs : List Nat} (hxs : ∀ l ∈ xs, l < 4) :
    xs.foldl startLink s = { s with links := (xs.foldl startLink s).links } := by
  induction xs generalizing s with
  | nil => rfl
  | cons l xs ih =>
    have hl := hxs l (List.mem_cons_self ..)
    rw [List.foldl_cons, ih (silent_startLink h hl) fun m hm => hxs m (List.mem_cons_of_mem _ hm), startLink_eq h hl]
    rfl

/-- Each link is started once. -/
theorem linkAt_foldl_startLink {s : State} (h : Silent s) {xs : List Nat} (hxs : ∀ l ∈ xs, l < 4) (hnodup : xs.Nodup)
    (m : Nat) : linkAt (xs.foldl startLink s) m = if m ∈ xs then startedLink (linkAt s m) else linkAt s m := by
  induction xs generalizing s with
  | nil => rfl
  | cons l xs ih =>
    obtain ⟨hnot, hrest⟩ := List.nodup_cons.mp hnodup
    have hl := hxs l (List.mem_cons_self ..)
    rw [List.foldl_cons, ih (silent_startLink h hl) (fun k hk => hxs k (List.mem_cons_of_mem _ hk)) hrest,
      startLink_eq h hl]
    by_cases hm : l = m
    · subst hm
      rw [if_neg hnot, if_pos (List.mem_cons_self ..), linkAt_setLink, if_pos ⟨rfl, hl⟩]
    · have hmem : m ∈ l :: xs ↔ m ∈ xs := by simp [Ne.symm hm]
      have hsame : linkAt (setLink s l (startedLink (linkAt s l))) m = linkAt s m := by
        rw [linkAt_setLink, if_neg fun hc => hm hc.1]
      rw [hsame, if_congr hmem rfl rfl]

/-! ### START (O16) -/

/-- With an empty table, the tremulants off and every stage 0 no outlet is demanded. -/
theorem silent_opened {s : State} (hempty : tableEmpty s = true) : Silent (opened s) := by
  refine ⟨rfl, fun l => BitVec.eq_of_getLsbD_eq fun pos hpos => ?_⟩
  have hrecord (i : Nat) : recordAt (opened s) i = none := (tableEmpty_iff s).mp hempty i
  have htremulant (q : Nat) : (opened s).tremulants.getLsbD q = false := by simp [opened]
  have hstage (e : Nat) : (runAt (opened s) e).stage = 0 := by
    change (look (Vector.replicate 8 ExprRun.clear) e ExprRun.clear).stage = 0
    rw [look_replicate_default]
    rfl
  have hzero : (0 : LinkImage).getLsbD pos = false := by simp
  rw [hzero]
  refine Bool.of_not_eq_true fun hon => ?_
  rw [demandedImage, BitVec.getLsbD_or, BitVec.getLsbD_or, Bool.or_eq_true, Bool.or_eq_true,
    records_demand_iff _ l hpos, ranks_demand_iff _ l hpos, shades_demand_iff _ l hpos] at hon
  rcases hon with (⟨i, r, hr, -⟩ | (⟨q, slot, bit, -, -, -, -, -, i, r, hr, -⟩ | ⟨q, -, -, -, hq, -⟩))
    | ⟨-, e, -, -, -, hle, hlt⟩
  · rw [hrecord] at hr
    cases hr
  · rw [hrecord] at hr
    cases hr
  · rw [htremulant] at hq
    cases hq
  · rw [hstage] at hlt
    omega

/-- What START's request comes to where there is no offence. -/
def started (s : State) : State := respond (startRun (idleFill s), okWith [])

section Start

variable {s : State} (hfree : PortFree s) (hconfig : s.mode = .config)
include hfree hconfig

theorem exec_start_refused {t k : Nat} (h : firstOffence s = some (t, k)) :
    exec (.start []) s = .next (answered s .configError [byte t, byte k]) := by
  refine exec_answers rfl hfree (takenInConfig_iff.mpr hconfig) rfl ?_
  change startWork (idleFill s) = _
  rw [startWork, show firstOffence (idleFill s) = some (t, k) from h]

theorem exec_start (h : firstOffence s = none) : exec (.start []) s = .next (started s) := by
  rw [exec_worked rfl hfree (takenInConfig_iff.mpr hconfig) rfl]
  change Host.Outcome.next (respond (startWork (idleFill s))) = _
  rw [startWork, show firstOffence (idleFill s) = none from h]
  rfl

end Start

theorem startRun_eq (s : State) : startRun s = four.foldl startLink (opened s) := by
  unfold startRun opened
  rfl

theorem links_started (s : State) : (started s).links = (four.foldl startLink (opened (idleFill s))).links := by
  rw [started, startRun_eq, respond]

theorem four_lt : ∀ l ∈ four, l < 4 := by decide

theorem nodup_four : four.Nodup := by decide

theorem mem_four {l : Nat} (hl : l < 4) : l ∈ four := by
  interval_cases l <;> decide

section Started

variable {s : State} (hempty : tableEmpty s = true)
include hempty

theorem started_frame : started s = { s with
    mode := .run, drawn := 0, tremulants := 0, runs := Vector.replicate 8 ExprRun.clear
    portA := portStarted s.portA, portB := portStarted s.portB, links := (started s).links
    dataOut := [], response := some (okWith []) } := by
  have hstarted : started s = { startRun (idleFill s) with response := some (okWith []) } := rfl
  have hframe : startRun (idleFill s) = { opened (idleFill s) with links := (startRun (idleFill s)).links } :=
    foldl_startLink_frame (silent_opened (s := idleFill s) hempty) four_lt
  rw [hstarted, hframe]
  rfl

theorem set_started : (started s).response = some (okWith []) ∧ (started s).mode = .run ∧ (started s).drawn = 0
    ∧ (started s).runs = Vector.replicate 8 ExprRun.clear := by
  rw [started_frame hempty]
  exact ⟨rfl, rfl, rfl, rfl⟩

theorem tables_started : (started s).table = s.table ∧ (started s).rails = s.rails ∧ (started s).ranks = s.ranks
    ∧ (started s).stops = s.stops ∧ (started s).grants = s.grants ∧ (started s).combination = s.combination
    ∧ (started s).crescendo = s.crescendo ∧ (started s).expression = s.expression ∧ (started s).mutes = s.mutes := by
  rw [started_frame hempty]
  exact ⟨rfl, rfl, rfl, rfl, rfl, rfl, rfl, rfl, rfl⟩

theorem reports_started : (started s).dirty = s.dirty ∧ (started s).dirtyOverflow = s.dirtyOverflow
    ∧ (started s).faults = s.faults ∧ (started s).counters = s.counters
    ∧ (started s).pendingCauses = s.pendingCauses ∧ (started s).enabledCauses = s.enabledCauses
    ∧ (started s).details = s.details ∧ (started s).firstCause = s.firstCause := by
  rw [started_frame hempty]
  exact ⟨rfl, rfl, rfl, rfl, rfl, rfl, rfl, rfl⟩

theorem portAt_started (p : PortId) : portAt (started s) p = portStarted (portAt s p) := by
  rw [started_frame hempty]
  cases p <;> rfl

theorem linkAt_started {l : Nat} (hl : l < 4) : linkAt (started s) l = startedLink (linkAt s l) := by
  have hlink := linkAt_foldl_startLink (silent_opened (s := idleFill s) hempty) four_lt nodup_four l
  rw [if_pos (mem_four hl)] at hlink
  exact (linkAt_of_links (links_started s) l).trans hlink

end Started

theorem startedLink_enabled {x : Link} (h : x.entry.enabled = true) :
    startedLink x = begun { Link.idle x.entry with state := .up } 0 false := if_pos h

theorem startedLink_disabled {x : Link} (h : x.entry.enabled = false) : startedLink x = x := by
  rw [startedLink, h, if_neg Bool.false_ne_true]

theorem entry_startedLink (x : Link) : (startedLink x).entry = x.entry := by
  unfold startedLink
  split
  · rfl
  · rfl

theorem portStarted_enabled {c : ConsolePort} (h : c.entry.enabled = true) :
    portStarted c = { portOff c with state := .seeking, receiver := .waiting } := if_pos h

theorem portStarted_disabled {c : ConsolePort} (h : c.entry.enabled = false) : portStarted c = portOff c := by
  rw [portStarted, h, if_neg Bool.false_ne_true]

/-- START leaves a port its level, its recall slot, its entry and its maps. -/
theorem kept_portStarted (c : ConsolePort) : (portStarted c).level = c.level
    ∧ (portStarted c).recallSlot = c.recallSlot ∧ (portStarted c).entry = c.entry
    ∧ (portStarted c).slotMap = c.slotMap ∧ (portStarted c).returnMap = c.returnMap := by
  unfold portStarted
  split
  · exact ⟨rfl, rfl, rfl, rfl, rfl⟩
  · exact ⟨rfl, rfl, rfl, rfl, rfl⟩

/-- Settles O16. -/
theorem startRefusesOrPutsTheRelayInRun : Obligations.StartRefusesOrPutsTheRelayInRun := by
  unfold Obligations.StartRefusesOrPutsTheRelayInRun
  intro s hfree hconfig
  refine ⟨fun k hk h hfirst => exec_start_refused hfree hconfig (firstOffence_rail hk h hfirst),
    fun hrails r hr h hfirst => exec_start_refused hfree hconfig (firstOffence_rank hrails hr h hfirst),
    fun hrails hranks l hl h hfirst => exec_start_refused hfree hconfig (firstOffence_link hrails hranks hl h hfirst),
    fun hrails hranks hlinks hempty => ?_⟩
  obtain ⟨hresponse, hmode, hdrawn, hruns⟩ := set_started hempty
  obtain ⟨htable, hrailsKept, hranksKept, hstops, hgrants, hcombination, hcrescendo, hexpression, hmutes⟩ := tables_started hempty
  obtain ⟨hdirty, hoverflow, hfaults, hcounters, hpending, henabled, hdetails, hfirst⟩ := reports_started hempty
  refine ⟨started s, exec_start hfree hconfig (firstOffence_none hrails hranks hlinks), hresponse, hmode, hdrawn,
    fun e => ?_, fun p henabled => ?_, fun p hdisabled => ?_, fun p => ?_, fun l hl henabled => ?_,
    fun l hl hdisabled => ?_, htable, hrailsKept, hranksKept, hstops, hgrants, hcombination, hcrescendo, hexpression, hmutes,
    fun p => ?_, fun l hl => ?_, hdirty, hoverflow, hfaults, hcounters, hpending, henabled, hdetails, hfirst⟩
  · rw [runAt, hruns]
    exact look_replicate_default 8 e ExprRun.clear
  · rw [portAt_started hempty, portStarted_enabled henabled]
    exact ⟨rfl, rfl, rfl, rfl⟩
  · rw [portAt_started hempty, portStarted_disabled hdisabled]
    exact ⟨rfl, rfl⟩
  · obtain ⟨hlevel, hrecall, -, -, -⟩ := kept_portStarted (portAt s p)
    rw [portAt_started hempty]
    exact ⟨hlevel, hrecall⟩
  · rw [linkAt_started hempty hl, startedLink_enabled henabled]
    exact ⟨rfl, rfl, rfl, rfl⟩
  · rw [linkAt_started hempty hl, startedLink_disabled hdisabled]
  · obtain ⟨-, -, hentry, hslots, hreturns⟩ := kept_portStarted (portAt s p)
    rw [portAt_started hempty]
    exact ⟨hentry, hslots, hreturns⟩
  · rw [linkAt_started hempty hl, entry_startedLink]

end Sys2Proof.Proofs.Modes
end
